-- ==== Sys2Proof/Word.lean ====
section
/-! DEFINITION. The byte. The types whose sizes are constants of R4 stand with those constants, in Config. -/

namespace Sys2Proof

/-- One byte, bit 7 the most significant (R7). -/
abbrev Byte := BitVec 8

end Sys2Proof
end

