-- ==== Sys2Proof/Config.lean ====
section
/-! DEFINITION. The constants of the block (R4, R35), the parameters the spec leaves OPEN, and the free values:
what the environment decides and no rule of the spec fixes. A free value has no body, so nothing can be proved
about which value it is. -/

namespace Sys2Proof.Config

/-! ## The named constants of R4 -/

/-- `BLOCK_SIZE`: bytes of one flash block. -/
@[simp] abbrev blockSize : Nat := 1024
/-- `ADDR_BITS`: the width of an address, `Addr`. -/
@[simp] abbrev addrBits : Nat := 24
/-- `ADDR_BYTES`: bytes of one address on the wire. -/
@[simp] abbrev addrBytes : Nat := 3
/-- `DATA_LEN`: payload bytes of one data frame. -/
@[simp] abbrev dataLen : Nat := 256
/-- `STX_CMD`: first byte of a command frame. -/
@[simp] abbrev stxCmd : Byte := 0x01#8
/-- `STX_DATA`: first byte of a data frame. -/
@[simp] abbrev stxData : Byte := 0x02#8
/-- `ETX`: last byte of every frame. -/
@[simp] abbrev etx : Byte := 0x03#8
/-- `LEN_NOADDR`: LEN byte of a command frame without addresses. -/
@[simp] abbrev lenNoAddr : Byte := 0x01#8
/-- `LEN_ADDR`: LEN byte of a block-scoped command frame. -/
@[simp] abbrev lenAddr : Byte := 0x07#8
/-- `LEN_DATA`: LEN byte of a data frame, standing for 256. -/
@[simp] abbrev lenData : Byte := 0x00#8
/-- `CMD_RESET`. -/
@[simp] abbrev cmdReset : Byte := 0x00#8
/-- `CMD_CHIP_ERASE`. -/
@[simp] abbrev cmdChipErase : Byte := 0x20#8
/-- `CMD_BLOCK_ERASE`. -/
@[simp] abbrev cmdBlockErase : Byte := 0x22#8
/-- `CMD_VERIFY`. -/
@[simp] abbrev cmdVerify : Byte := 0x13#8
/-- `CMD_BLANK_CHECK`. -/
@[simp] abbrev cmdBlankCheck : Byte := 0x32#8
/-- `CMD_PROGRAM`. -/
@[simp] abbrev cmdProgram : Byte := 0x40#8
/-- `ST_ACK`: the only status treated as success. -/
@[simp] abbrev stAck : Byte := 0x06#8
/-- `HDR_READ`: bytes of the first read of a response. -/
@[simp] abbrev hdrRead : Nat := 2
/-- `TAIL_EXTRA`: the second read is `LEN + TAIL_EXTRA` bytes. -/
@[simp] abbrev tailExtra : Nat := 2
/-- `STATUS_OFFSET`: offset of the status byte in a response. -/
@[simp] abbrev statusOffset : Nat := 2
/-- `BAUD`. -/
@[simp] abbrev baud : Nat := 9600
/-- `DATA_BITS`. -/
@[simp] abbrev dataBits : Nat := 8
/-- `PARITY`: no parity bit. -/
@[simp] abbrev parityBit : Bool := false
/-- `STOP_BITS`. -/
@[simp] abbrev stopBits : Nat := 1
/-- `READ_TIMEOUT` in milliseconds. -/
@[simp] abbrev readTimeout : Nat := 1000
/-- `T_SHORT` in milliseconds. -/
@[simp] abbrev tShort : Nat := 11
/-- `T_LONG` in milliseconds. -/
@[simp] abbrev tLong : Nat := 400
/-- `SYNC_BYTE`. -/
@[simp] abbrev syncByte : Byte := 0x00#8
/-- `EXIT_OK`. -/
@[simp] abbrev exitOk : Nat := 0
/-- `EXIT_FAIL`. -/
@[simp] abbrev exitFail : Nat := 2
/-- `MAX_BLOCK`: largest block index accepted (decision D2). -/
@[simp] abbrev maxBlock : Nat := 16383

/-! ## Sizes that follow from these -/

/-- The width of `BLK` (R22): the largest block index fills it. -/
@[simp] abbrev blockBits : Nat := 14
/-- Bytes of a frame beside its BODY: `STX`, `LEN`, `CRC`, `ETX` (R81). -/
@[simp] abbrev frameExtra : Nat := 4
/-- Bytes of `TXBUF`: the longest frame sent is the data frame (R26). -/
@[simp] abbrev txBufSize : Nat := dataLen + frameExtra
/-- Bytes of `RXBUF`: the longest response has LEN 255 (R27). -/
@[simp] abbrev rxBufSize : Nat := hdrRead + (255 + tailExtra)

/-! ## Parameters of the decisions file -/

/-- `RX_LEN0_IS_256` (D3, V8): the other reading of a received LEN of 0. The spec's default is false. -/
@[simp] abbrev rxLen0Is256 : Bool := false

/-- `F_CLK` (D5, OPEN): the clock of a register-transfer rendering, in hertz. No rule reads it. -/
opaque fClk : Nat
/-- `DELAY_TOL` (D5, OPEN): how many milliseconds longer than nominal a handshake delay may be. -/
opaque delayTol : Nat
/-- `CTL_LINE` (D6, OPEN): the number of the modem line that carries the control line. -/
opaque ctlLine : Nat
/-- `CTL_POLARITY` (D6, OPEN): the electrical level of "assert". -/
opaque ctlPolarity : Bool

/-! ## Free values: the environment's answers where no scripted one is left

Each is applied to the counter of draws in the state, which every draw advances. -/

/-- Whether an open succeeds (D23, V2). -/
opaque freeOpenOk : Nat → Bool
/-- Whether a write succeeds (R53, V2). -/
opaque freeWriteOk : Nat → Bool
/-- How many bytes of a failed write reached the line (R53, D11, V3). -/
opaque freeSent : Nat → Nat
/-- What the target sends within one read's bound (R56, V1): any bytes, any number. -/
opaque freeRead : Nat → List Byte
/-- What is left of `TIMER` when a read has got all its bytes (R34). -/
opaque freeTimeLeft : Nat → Nat

end Sys2Proof.Config

namespace Sys2Proof

/-- An address in the target's flash (R59). -/
abbrev Addr := BitVec Config.addrBits

/-- A block index as the register `BLK` holds it (R22). -/
abbrev BlockIndex := BitVec Config.blockBits

/-- A payload: exactly as many bytes as one data frame carries (R25). -/
abbrev Payload := Vector Byte Config.dataLen

end Sys2Proof
end

