-- ==== Sys2Proof/Syntax.lean ====
section
/-! DEFINITION. The instructions: one constructor for every row of spec/opcode_table.json.

A row is a wire-level item (R101): the six command frames, the data frame, the response, the sync byte and the 13
status bytes. The six commands and SYNC stand for the operation whose frame or byte they are (R5: instruction =
operation); DATA, RESP and the status bytes stand for the part of a command's exchange that handles them. -/

namespace Sys2Proof

/-- The wire-level items of the opcode table (R101). A block index is the host's natural number (R99); the check
that it fits 14 bits is `Instr.wellFormed` and, in the machine, the admission (R60, R180). -/
inductive Instr where
  /-- `Reset()`, frame CMD1, command byte 0x00 (R183). -/
  | cmdReset
  /-- `ChipErase()`, frame CMD1, command byte 0x20 (R184). -/
  | chipErase
  /-- `BlockErase(block)`, frame CMD7, command byte 0x22 (R185). -/
  | blockErase (block : Nat)
  /-- `BlankCheckBlock(block)`, frame CMD7, command byte 0x32 (R186). -/
  | blankCheck (block : Nat)
  /-- `ProgramBlock(block, data)`, frame CMD7, command byte 0x40 (R187). The payload is not in the command frame:
  it stands at the host port. -/
  | program (block : Nat)
  /-- `VerifyBlock(block, data)`, frame CMD7, command byte 0x13 (R188). -/
  | verify (block : Nat)
  /-- The data frame with its 256 payload bytes (R91, R132). -/
  | data (payload : Payload)
  /-- A response (R92, R133): the bytes at offsets 0, 1, 2 and everything after offset 2. -/
  | resp (stx len status : Byte) (rest : List Byte)
  /-- The unframed sync byte 0x00, written twice by RESET_AND_SYNC (R93, R163). -/
  | sync
  /-- Status 0x00 "no data" (R150). -/
  | status00
  /-- Status 0x04 "command number error" (R150). -/
  | status04
  /-- Status 0x05 "parameter error" (R150). -/
  | status05
  /-- Status 0x06 "ACK" (R150). -/
  | status06
  /-- Status 0x07 "checksum error" (R150). -/
  | status07
  /-- Status 0x0F "verify error" (R150). -/
  | status0F
  /-- Status 0x10 "protect error" (R150). -/
  | status10
  /-- Status 0x15 "NACK" (R150). -/
  | status15
  /-- Status 0x1A "MRG10 error" (R150). -/
  | status1A
  /-- Status 0x1B "MRG11 error" (R150). -/
  | status1B
  /-- Status 0x1C "write error" (R150). -/
  | status1C
  /-- Status 0x20 "read error" (R150). -/
  | status20
  /-- Status 0xFF "busy" (R150). -/
  | statusFF
deriving DecidableEq, Repr

end Sys2Proof
end

