-- ==== Sys2Proof/Decode.lean ====
section
/-! DEFINITION. The frame codec: byte order, checksum, the frame encoders, the decoder of wire-level items (total,
rejecting by name) and the encoder of instructions.

The same byte or bytes mean different things at different places of the protocol (R93: a sync byte is only known by
its position; R150: status 0x20 is not ChipErase), so the decoder is told the `Position`. -/

namespace Sys2Proof

/-! ## Byte order and address arithmetic (R8, R57, R59, R85) -/

/-- `be24(a)`: the `ADDR_BYTES` bytes of an address, most significant first (R8). -/
def be24 (a : Addr) : List Byte :=
  (List.range Config.addrBytes).reverse.map fun k => a.extractLsb' (8 * k) 8

/-- The number that bytes are, most significant first. -/
def unbe (bs : List Byte) : Nat := bs.foldl (fun n b => n * 256 + b.toNat) 0

/-- `unbe24([x, y, z]) = x*65536 + y*256 + z` (R8). -/
def unbe24 (x y z : Byte) : Nat := x.toNat * 65536 + y.toNat * 256 + z.toNat

/-- `start_address = n * 1024` (R59). -/
def startAddress (n : Nat) : Addr := BitVec.ofNat Config.addrBits (n * Config.blockSize)

/-- `end_address = (n + 1) * 1024 - 1` (R59). -/
def endAddress (n : Nat) : Addr := BitVec.ofNat Config.addrBits ((n + 1) * Config.blockSize - 1)

/-- The six address bytes of a block-scoped command (R85, R131): start before end. -/
def addressBytes (n : Nat) : List Byte := be24 (startAddress n) ++ be24 (endAddress n)

/-! ## The checksum (R120 to R125) -/

/-- `sum(s)`: the sum of the bytes as a natural number (R8). -/
def byteSum : List Byte → Nat
  | [] => 0
  | b :: bs => b.toNat + byteSum bs

/-- `crc(buf, n)`: the additive inverse, mod 256, of the sum of the bytes at offsets 1 to n + 1 (R121). -/
def crc (buf : List Byte) (n : Nat) : Byte :=
  BitVec.ofInt 8 (0 - (byteSum ((buf.drop 1).take (n + 1)) : Int))

/-! ## The frame encoders -/

/-- `encode_command(c, a)` (R130). -/
def encodeCommand (c : Byte) (a : List Byte) : List Byte :=
  let len := 1 + a.length
  let buf := [Config.stxCmd, BitVec.ofNat 8 len, c] ++ a
  buf ++ [crc buf len, Config.etx]

/-- `encode_data(p)` (R132). The payload has exactly `DATA_LEN` bytes by its type, so the precondition always holds. -/
def encodeData (p : Payload) : List Byte :=
  let buf := [Config.stxData, Config.lenData] ++ p.toList
  buf ++ [crc buf Config.dataLen, Config.etx]

/-- The command frame of a block-scoped command (R90). -/
def blockFrame (c : Byte) (n : Nat) : List Byte := encodeCommand c (addressBytes n)

/-- How many bytes the second read of a response asks for: `LEN + 2`, the plain value of LEN (R94, R135, R138). -/
def tailCount (len : Byte) : Nat :=
  if Config.rxLen0Is256 && len == Config.lenData then Config.dataLen + Config.tailExtra else len.toNat + Config.tailExtra

/-! ## The decoder -/

/-- Where in the protocol the bytes stand. -/
inductive Position where
  /-- What the host asks for, by its wire item: a command frame or the sync byte. -/
  | request
  /-- The frame of the data phase. -/
  | data
  /-- What the target answers. -/
  | response
  /-- Offset 2 of a response. -/
  | status
deriving DecidableEq, Repr

/-- Why bytes are no item at their position. -/
inductive DecodeError where
  /-- The item is shorter than its format needs. -/
  | tooShort
  /-- The first byte is not the one the format fixes (R82). -/
  | badStart (b : Byte)
  /-- The LEN byte is not one the format allows (R83). -/
  | badLen (b : Byte)
  /-- The number of bytes is not the one that LEN gives (R81, R94). -/
  | badCount (got : Nat)
  /-- The CRC byte is not the checksum (R86, R101). -/
  | badCrc (b : Byte)
  /-- The last byte is not 0x03 (R87). -/
  | badEnd (b : Byte)
  /-- No operation has this command byte with this LEN (R88, R96). -/
  | noCommand (b : Byte)
  /-- The six address bytes are not those of any block (R85). -/
  | badAddresses
  /-- The byte is none of the 13 listed statuses (R95, R98). -/
  | unlistedStatus (b : Byte)
deriving DecidableEq, Repr

/-- Read the byte at an offset, 0 past the end; every use below is inside the sequence. -/
def byteAt (f : List Byte) (i : Nat) : Byte := (f[i]?).getD 0x00#8

/-- The inverse of `encode_command` (R141): command byte and address bytes, with the reason where there is none. -/
def parseCommand (f : List Byte) : Except DecodeError (Byte × List Byte) :=
  let len := byteAt f 1
  if f.length < 5 then .error .tooShort
  else if byteAt f 0 ≠ Config.stxCmd then .error (.badStart (byteAt f 0))
  else if len ≠ Config.lenNoAddr ∧ len ≠ Config.lenAddr then .error (.badLen len)
  else if f.length ≠ len.toNat + 4 then .error (.badCount f.length)
  else if byteAt f (len.toNat + 2) ≠ crc f len.toNat then .error (.badCrc (byteAt f (len.toNat + 2)))
  else if byteAt f (len.toNat + 3) ≠ Config.etx then .error (.badEnd (byteAt f (len.toNat + 3)))
  else .ok (byteAt f 2, (f.drop 3).take (len.toNat - 1))

/-- `parse_command_frame(f)` (R141). -/
def parseCommandFrame (f : List Byte) : Option (Byte × List Byte) := (parseCommand f).toOption

/-- The block whose address bytes these are (R85, R141). -/
def blockOf (a : List Byte) : Except DecodeError Nat :=
  let n := unbe (a.take Config.addrBytes) / Config.blockSize
  if a = addressBytes n then .ok n else .error .badAddresses

/-- The command that a command byte with its address bytes selects (R88). -/
def commandOf (c : Byte) (a : List Byte) : Except DecodeError Instr :=
  if a = [] then
    if c = Config.cmdReset then .ok .cmdReset
    else if c = Config.cmdChipErase then .ok .chipErase
    else .error (.noCommand c)
  else if c = Config.cmdBlockErase then (blockOf a).map .blockErase
  else if c = Config.cmdBlankCheck then (blockOf a).map .blankCheck
  else if c = Config.cmdProgram then (blockOf a).map .program
  else if c = Config.cmdVerify then (blockOf a).map .verify
  else .error (.noCommand c)

/-- A request by its wire item: the sync byte alone, or a command frame. -/
def decodeRequest (f : List Byte) : Except DecodeError Instr :=
  if f = [Config.syncByte] then .ok .sync
  else match parseCommand f with
    | .ok (c, a) => commandOf c a
    | .error e => .error e

/-- A list of exactly `DATA_LEN` bytes as a payload (R25: no other length can be held). -/
def payloadOf (p : List Byte) : Option Payload :=
  if h : p.length = Config.dataLen then some ⟨p.toArray, by simpa using h⟩ else none

/-- The data frame (R91). -/
def decodeData (f : List Byte) : Except DecodeError Instr :=
  if byteAt f 0 ≠ Config.stxData then .error (.badStart (byteAt f 0))
  else if byteAt f 1 ≠ Config.lenData then .error (.badLen (byteAt f 1))
  else if f.length ≠ Config.dataLen + Config.frameExtra then .error (.badCount f.length)
  else if byteAt f (Config.dataLen + 2) ≠ crc f Config.dataLen then .error (.badCrc (byteAt f (Config.dataLen + 2)))
  else if byteAt f (Config.dataLen + 3) ≠ Config.etx then .error (.badEnd (byteAt f (Config.dataLen + 3)))
  else match payloadOf ((f.drop 2).take Config.dataLen) with
    | some p => .ok (.data p)
    | none => .error (.badCount f.length)

/-- A response: any `LEN + 4` bytes whatever (R92, R137). Only the number of bytes is looked at. -/
def decodeResponse (f : List Byte) : Except DecodeError Instr :=
  match f with
  | stx :: len :: status :: rest =>
    if rest.length + 1 = tailCount len then .ok (.resp stx len status rest) else .error (.badCount f.length)
  | _ => .error .tooShort

/-- The listed status that a byte is (R150). -/
def statusOf (b : Byte) : Except DecodeError Instr :=
  if b = 0x00#8 then .ok .status00
  else if b = 0x04#8 then .ok .status04
  else if b = 0x05#8 then .ok .status05
  else if b = Config.stAck then .ok .status06
  else if b = 0x07#8 then .ok .status07
  else if b = 0x0F#8 then .ok .status0F
  else if b = 0x10#8 then .ok .status10
  else if b = 0x15#8 then .ok .status15
  else if b = 0x1A#8 then .ok .status1A
  else if b = 0x1B#8 then .ok .status1B
  else if b = 0x1C#8 then .ok .status1C
  else if b = 0x20#8 then .ok .status20
  else if b = 0xFF#8 then .ok .statusFF
  else .error (.unlistedStatus b)

/-- A status byte at its place. -/
def decodeStatus (f : List Byte) : Except DecodeError Instr :=
  match f with
  | [b] => statusOf b
  | [] => .error .tooShort
  | _ => .error (.badCount f.length)

/-- The decoder: total on any bytes at any position. -/
def decode (p : Position) (f : List Byte) : Except DecodeError Instr :=
  match p with
  | .request => decodeRequest f
  | .data => decodeData f
  | .response => decodeResponse f
  | .status => decodeStatus f

/-! ## The encoder of instructions -/

/-- Where an instruction's bytes stand. -/
def Instr.position : Instr → Position
  | .cmdReset | .chipErase | .blockErase _ | .blankCheck _ | .program _ | .verify _ | .sync => .request
  | .data _ => .data
  | .resp _ _ _ _ => .response
  | .status00 | .status04 | .status05 | .status06 | .status07 | .status0F | .status10 | .status15 | .status1A
  | .status1B | .status1C | .status20 | .statusFF => .status

/-- The wire bytes of an instruction, offset 0 first, from the formats of R89 to R95. -/
def encode : Instr → List Byte
  | .cmdReset => encodeCommand Config.cmdReset []
  | .chipErase => encodeCommand Config.cmdChipErase []
  | .blockErase n => blockFrame Config.cmdBlockErase n
  | .blankCheck n => blockFrame Config.cmdBlankCheck n
  | .program n => blockFrame Config.cmdProgram n
  | .verify n => blockFrame Config.cmdVerify n
  | .data p => encodeData p
  | .resp stx len status rest => stx :: len :: status :: rest
  | .sync => [Config.syncByte]
  | .status00 => [0x00#8]
  | .status04 => [0x04#8]
  | .status05 => [0x05#8]
  | .status06 => [Config.stAck]
  | .status07 => [0x07#8]
  | .status0F => [0x0F#8]
  | .status10 => [0x10#8]
  | .status15 => [0x15#8]
  | .status1A => [0x1A#8]
  | .status1B => [0x1B#8]
  | .status1C => [0x1C#8]
  | .status20 => [0x20#8]
  | .statusFF => [0xFF#8]

/-! ## Words of the opcode table -/

/-- The bytes of a word: bit 0 is the least significant bit of the first byte. -/
def wordBytes (nbits w : Nat) : List Byte :=
  (List.range (nbits / 8)).map fun k => BitVec.ofNat 8 (w >>> (8 * k))

/-- Whether bytes are laid out as a frame with `n` BODY bytes, but have 0 for their CRC. -/
def lacksCrc (stx len : Byte) (n : Nat) (f : List Byte) : Bool :=
  f.length == n + Config.frameExtra && byteAt f 0 == stx && byteAt f 1 == len && byteAt f (n + 2) == 0x00#8

/-- The table leaves the CRC of a CMD7 or DATA frame out of its mask, because the CRC is no operand: R101 makes a
frame an instance of such a row only if its CRC is the value of R86. A table word whose CRC bits are still 0 gets
that value before it is decoded (log entry 12). -/
def withDerivedCrc (f : List Byte) : List Byte :=
  let n := Config.lenAddr.toNat
  if lacksCrc Config.stxCmd Config.lenAddr n f then f.set (n + 2) (crc f n)
  else if lacksCrc Config.stxData Config.lenData Config.dataLen f then
    f.set (Config.dataLen + 2) (crc f Config.dataLen)
  else f

/-- A table word as the hardware lays it out. -/
def tableBytes (nbits w : Nat) : List Byte := withDerivedCrc (wordBytes nbits w)

/-- The first position at which bytes are an item: a word of the table carries no position. So 0x00 is SYNC here,
and only at the status position STATUS_00 (R93, log entry 11). -/
def decodeAnywhere (f : List Byte) : Option (Position × Instr) :=
  match decode .request f, decode .data f, decode .status f, decode .response f with
  | .ok i, _, _, _ => some (.request, i)
  | .error _, .ok i, _, _ => some (.data, i)
  | .error _, .error _, .ok i, _ => some (.status, i)
  | .error _, .error _, .error _, .ok i => some (.response, i)
  | .error _, .error _, .error _, .error _ => none

/-- The instruction the decoder reads from a word of the opcode table. -/
def decodeTableWord (nbits w : Nat) : Option Instr := (decodeAnywhere (tableBytes nbits w)).map (·.2)

end Sys2Proof
end

