-- ==== Sys2Proof/Machine/State.lean ====
section
/-! DEFINITION. The state of the protocol engine (R20), plain data, and its value after HRESET (R39).

`State` holds the engine's tuple of R20, and beside it the environment: the host's requests and payload, the
transport's answers, the target's bytes. The environment is data of unknown content: a statement about every state is
a statement about every environment (R56). -/

namespace Sys2Proof.Machine

/-- The operation requested (R21). -/
inductive Op where
  | none
  | openPort
  | resetAndSync
  | cmdReset
  | chipErase
  | blockErase
  | blankCheck
  | program
  | verify
  | close
deriving DecidableEq, Repr

/-- The sequencer position (R28, R29). -/
inductive Phase where
  | idle
  | opening
  | hs0 | hs1 | hs2 | hs3 | hs4 | hs5 | hs6 | hs7 | hs8 | hs9
  | cEnc | cTx | cRxh | cRxt | cChk
  | dEnc | dTx | dRxh | dRxt | dChk
  | closing
deriving DecidableEq, Repr

/-- The session state (R32, R225). -/
inductive Sess where
  | closed
  /-- `OPEN`. -/
  | opened
  | synced
  | failed
deriving DecidableEq, Repr

/-- Which exchange of an operation a failure belongs to (R24). -/
inductive Exchange where
  | command
  | data
deriving DecidableEq, Repr

/-- A typed failure with its info (R24, R210). -/
inductive Failure where
  /-- TransportError: the port could not be opened (R211 a). -/
  | transportOpen
  /-- TransportError: a write failed (R211 b). -/
  | transportWrite
  /-- FramingError: bytes asked for, bytes received (R212). -/
  | framing (asked got : Nat)
  /-- ProtocolError: the status byte and its name (R213). -/
  | protocol (status : Byte) (name : String)
deriving DecidableEq, Repr

/-- Why a request was not admitted (R224). -/
inductive Reason where
  | busy
  | alreadyOpen
  | notOpen
  | alreadySynced
  | noSession
  | sessionFailed
  | blockOutOfRange
  /-- With the length offered (R210). -/
  | badPayloadLength (offered : Nat)
deriving DecidableEq, Repr

/-- The outcome of a request (R10, R24). -/
inductive Result where
  | none
  | ok
  | statusReturned (s : Byte)
  | fail (f : Failure) (op : Op) (exchange : Option Exchange)
  | refused (r : Reason)
deriving DecidableEq, Repr

/-- What the engine did to the outside (R37). A Bool answer is true for ok. -/
inductive Event where
  | opened (port : String) (ok : Bool)
  | ctl (b : Bool)
  | delay (ms : Nat)
  | tx (bytes : List Byte) (ok : Bool)
  | rx (asked : Nat) (bytes : List Byte)
  | closed
deriving DecidableEq, Repr

/-- One thing the receive stream brings: a byte of the target, or a silence that outlasts the read's bound. A read
that meets a silence times out there (R54). -/
inductive RxItem where
  | byte (b : Byte)
  | silence
deriving DecidableEq, Repr

/-- The transport's answer to a write; with an error, how many of the bytes reached the line (R53, D11). -/
inductive WriteAnswer where
  | ok
  | error (sent : Nat)
deriving DecidableEq, Repr

/-- A request of the host, in the call syntax of R99. -/
inductive Request where
  | openPort (port : String)
  | resetAndSync
  | cmdReset
  | chipErase
  | blockErase (block : Nat)
  | blankCheck (block : Nat)
  | program (block : Nat) (data : List Byte)
  | verify (block : Nat) (data : List Byte)
  | close
deriving DecidableEq, Repr

/-- What comes next from outside the engine, and how far the engine runs on it. The finest grain is one phase
(`quiet`); `item` and `call` let the engine run on undisturbed through one wire item or one whole operation, which
comes to the same as that many phases. -/
inductive Input where
  /-- Nothing from outside: the engine does its next phase. -/
  | quiet
  /-- Nothing from outside while the engine does the whole wire item that its phase is about to handle. -/
  | item
  /-- A request of a host that waits for its end, as every call does (R65). -/
  | call (q : Request)
  /-- The same, the request being named by its wire item: a command frame or the sync byte (log entry 10). -/
  | frame (bytes : List Byte)
  /-- A request of a host that does not wait: it is admitted or refused, and the phases follow. -/
  | post (q : Request)
  /-- The reset input (R250). If a write is under way, `sent` of its bytes have gone out. -/
  | hreset (sent : Nat)
deriving DecidableEq, Repr

/-- The machine. -/
structure State where
  /-- `OP` (R21). -/
  op : Op
  /-- `BLK` (R22), as sampled at admission (R67). -/
  blk : BlockIndex
  /-- `DATA[0..255]` (R25), as sampled at admission (R67). -/
  data : Payload
  /-- `STATUS` (R23). -/
  status : Byte
  /-- `STATUS_V` (R23). -/
  statusV : Bool
  /-- `RESULT` (R24). -/
  result : Result
  /-- `TXBUF[0..259]` (R26). -/
  txbuf : Vector Byte Config.txBufSize
  /-- `TXLEN`, 0..260 (R26). -/
  txlen : Nat
  /-- `RXBUF[0..258]` (R27). -/
  rxbuf : Vector Byte Config.rxBufSize
  /-- `RXLEN`, 0..259 (R27). -/
  rxlen : Nat
  /-- `PHASE` (R28). -/
  phase : Phase
  /-- `SESS` (R32). -/
  sess : Sess
  /-- `CTL`, the level last driven (R33). -/
  ctl : Bool
  /-- `TIMER`, in milliseconds (R34). -/
  timer : Nat
  /-- `PORT` (R36). -/
  port : String
  /-- `HIST`, oldest first (R37). -/
  hist : List Event
  /-- The stream `TX`: every byte that reached the line since OPEN (R51). -/
  tx : List Byte
  /-- Environment: what the receive stream `RX` brings (R52, R41). -/
  rx : List RxItem
  /-- Environment: the transport's answers to the next opens (D23). -/
  opens : List Bool
  /-- Environment: the transport's answers to the next writes (R53). -/
  writes : List WriteAnswer
  /-- Environment: the payload the host holds at its port (R230). -/
  offer : List Byte
  /-- Environment: what comes next from outside. -/
  inputs : List Input
  /-- Environment: what the host has been answered, oldest first: every request gets one answer (R10). -/
  replies : List Result
  /-- The model's own: how many free values have been drawn. -/
  draws : Nat
deriving DecidableEq, Repr

/-- Why the machine stops with a fault. -/
inductive Fault where
  /-- DATA, RESP or a status byte executed at a phase that does not handle it. Raised by those meanings only when
  they are run on such a state directly: `step` never does. Safe: the spec gives no such transition (R189). -/
  | notAtItsPhase
deriving DecidableEq, Repr

/-- Why a step has no meaning. -/
inductive Refusal where
  /-- An instruction without a meaning yet: raised by exec's arm. Safe. -/
  | notModelled (mnemonic : String)
  /-- Bytes offered as a request that are no request's wire item (R88, R96): raised by `step`. Safe. -/
  | notARequest (e : DecodeError)
deriving DecidableEq, Repr

/-- A register file of zeros. -/
def zeros (n : Nat) : Vector Byte n := ⟨(List.replicate n 0x00#8).toArray, by simp⟩

/-- The state after HRESET (R39, R250). The spec gives `SESS`, `PHASE`, `OP`, `RESULT`, `STATUS_V`, `RXLEN` and
`HIST`; the other registers have the values of log entry 1, the environment that of log entry 2. -/
def State.reset : State where
  op := .none
  blk := 0
  data := zeros Config.dataLen
  status := 0x00#8
  statusV := false
  result := .none
  txbuf := zeros Config.txBufSize
  txlen := 0
  rxbuf := zeros Config.rxBufSize
  rxlen := 0
  phase := .idle
  sess := .closed
  ctl := false
  timer := 0
  port := ""
  hist := []
  tx := []
  rx := []
  opens := []
  writes := []
  offer := []
  inputs := []
  replies := []
  draws := 0

end Sys2Proof.Machine
end

