-- ==== Sys2Proof/Machine/Flags.lean ====
section
/-! DEFINITION. The status table (R150 to R155), the block's only condition code (R30), and what a host derives from
a result (R193, R194). -/

namespace Sys2Proof.Machine

/-- The ten ERROR kinds (R150). -/
inductive ErrorKind where
  | noData
  | commandNumberError
  | parameterError
  | checksumError
  | verifyError
  | protectError
  | mrg10Error
  | mrg11Error
  | writeError
  | readError
deriving DecidableEq, Repr

/-- The class of a status byte (R30, R151). -/
inductive StatusClass where
  | ack
  | nack
  | busy
  | error (k : ErrorKind)
  | unknown
deriving DecidableEq, Repr

/-- The three kinds of failure (R210). -/
inductive FailureKind where
  | transportError
  | framingError
  | protocolError
deriving DecidableEq, Repr

/-- What a host makes of a blank check's status (R155). -/
inductive BlankVerdict where
  | blank
  | nonBlank
  | checkFailed (c : StatusClass)
deriving DecidableEq, Repr

/-- `class(b)` (R151). -/
def statusClass (b : Byte) : StatusClass :=
  if b = Config.stAck then .ack
  else if b = 0x15#8 then .nack
  else if b = 0xFF#8 then .busy
  else if b = 0x00#8 then .error .noData
  else if b = 0x04#8 then .error .commandNumberError
  else if b = 0x05#8 then .error .parameterError
  else if b = 0x07#8 then .error .checksumError
  else if b = 0x0F#8 then .error .verifyError
  else if b = 0x10#8 then .error .protectError
  else if b = 0x1A#8 then .error .mrg10Error
  else if b = 0x1B#8 then .error .mrg11Error
  else if b = 0x1C#8 then .error .writeError
  else if b = 0x20#8 then .error .readError
  else .unknown

/-- The name of a class, in the source's words (R150). -/
def className : StatusClass → String
  | .ack => "ACK"
  | .nack => "NACK"
  | .busy => "busy"
  | .error .noData => "no data"
  | .error .commandNumberError => "command number error"
  | .error .parameterError => "parameter error"
  | .error .checksumError => "checksum error"
  | .error .verifyError => "verify error"
  | .error .protectError => "protect error"
  | .error .mrg10Error => "MRG10 error"
  | .error .mrg11Error => "MRG11 error"
  | .error .writeError => "write error"
  | .error .readError => "read error"
  | .unknown => "unknown status"

/-- `name(b)` (R150, R151). The byte's own value stands beside the name wherever a name is recorded. -/
def statusName (b : Byte) : String := className (statusClass b)

/-- `blank(b)`, the host's reading of a blank check (R155). -/
def blank (b : Byte) : BlankVerdict :=
  if b = Config.stAck then .blank
  else if b = 0x0F#8 then .nonBlank
  else .checkFailed (statusClass b)

/-- The kind of a failure (R24, R31). -/
def Failure.kind : Failure → FailureKind
  | .transportOpen | .transportWrite => .transportError
  | .framing _ _ => .framingError
  | .protocol _ _ => .protocolError

/-- The process result code the host derives (R193, D18). There is none before the first request ends. -/
def exitCode : Result → Option Nat
  | .none => Option.none
  | .ok => some Config.exitOk
  | .fail _ _ _ => some Config.exitFail
  | .statusReturned b => some (if b = Config.stAck then Config.exitOk else Config.exitFail)
  | .refused _ => some Config.exitFail

/-- The report texts the source names (R194): presentation, read by no rule. -/
def reportText (op : Op) (r : Result) : Option String :=
  match op, r with
  | .verify, .ok => some "verified equal"
  | _, .fail (.protocol _ _) .program (some .command) => some "programming command rejected"
  | _, .fail (.protocol _ _) .program (some .data) => some "programming failed"
  | _, .fail (.protocol _ _) .verify (some .data) => some "mismatch"
  | _, _ => Option.none

end Sys2Proof.Machine
end

