-- ==== Sys2Proof/Machine/Operands.lean ====
section
/-! DEFINITION. The operand forms: which operations take a block and a payload, the frames they send, the reading of
the receive stream, the bytes of the wire item at a phase, and the line's bit format. -/

namespace Sys2Proof.Machine

/-- The operations with a data phase (R187, R188). -/
def Op.twoPhase : Op → Bool
  | .program | .verify => true
  | _ => false

/-- The command frame an operation sends (R183 to R188); the operations without a frame send none. -/
def commandFrame (op : Op) (blk : BlockIndex) : List Byte :=
  match op with
  | .cmdReset => encodeCommand Config.cmdReset []
  | .chipErase => encodeCommand Config.cmdChipErase []
  | .blockErase => blockFrame Config.cmdBlockErase blk.toNat
  | .blankCheck => blockFrame Config.cmdBlankCheck blk.toNat
  | .program => blockFrame Config.cmdProgram blk.toNat
  | .verify => blockFrame Config.cmdVerify blk.toNat
  | .none | .openPort | .resetAndSync | .close => []

/-- `START` and `END`, derived from `BLK` and not state of their own (R22). -/
def State.startAddr (s : State) : Addr := startAddress s.blk.toNat

/-- See `State.startAddr`. -/
def State.endAddr (s : State) : Addr := endAddress s.blk.toNat

/-- `TXBUF[0 .. TXLEN-1]`: the frame in the transmit buffer (R166). -/
def State.txFrame (s : State) : List Byte := s.txbuf.toList.take s.txlen

/-- The raw response offered to the host (R27, R230). -/
def State.rxFrame (s : State) : List Byte := s.rxbuf.toList.take s.rxlen

/-- Whether a phase reads the header of a response. -/
def Phase.readsHeader : Phase → Bool
  | .cRxh | .dRxh => true
  | _ => false

/-- Whether a phase judges a status. -/
def Phase.judges : Phase → Bool
  | .cChk | .dChk => true
  | _ => false

/-- Where the bytes of the wire item at a phase stand. -/
def Phase.position : Phase → Position
  | .dEnc => .data
  | .cRxh | .dRxh => .response
  | .cChk | .dChk => .status
  | _ => .request

/-- Taking up to `n` bytes from the front of the receive stream (R52, R54): what was taken, what is left, and whether
the stream ran out before the read ended, so that the rest of the answer is open. A silence that ends the read is used
up; a silence behind the last byte asked for is not. -/
def pull : Nat → List RxItem → List Byte × List RxItem × Bool
  | 0, l => ([], l, false)
  | _ + 1, [] => ([], [], true)
  | _ + 1, .silence :: l => ([], l, false)
  | n + 1, .byte b :: l =>
    match pull n l with
    | (t, r, o) => (b :: t, r, o)

/-- The whole response at the front of the receive stream, if all its `LEN + 4` bytes are there (R92). -/
def peekResponse (rx : List RxItem) : Option (List Byte × List RxItem) :=
  let h := pull Config.hdrRead rx
  let t := pull (tailCount (byteAt h.1 1)) h.2.1
  if h.1.length = Config.hdrRead ∧ t.1.length = tailCount (byteAt h.1 1) then some (h.1 ++ t.1, t.2.1) else none

/-- The bytes of the wire item that the phase is about to handle, and the state with the receive stream moved past
them: the data frame, a complete response, the status byte. -/
def fetchItem (s : State) : Option (List Byte × State) :=
  match s.phase with
  | .dEnc => some (encodeData s.data, s)
  | .cRxh | .dRxh => (peekResponse s.rx).map fun p => (p.1, { s with rx := p.2 })
  | .cChk | .dChk => some ([s.status], s)
  | _ => none

/-- The bits of a byte on the line, first sent first: start bit low, eight data bits least significant first, stop
bit high. PRESUMED (R58 marks it general knowledge; no rule reads it; log entry 15). -/
def serialBits (b : Byte) : List Bool :=
  [false] ++ (List.range Config.dataBits).map (fun i => b.getLsbD i) ++ List.replicate Config.stopBits true

/-- The electrical level that a logical control-line value produces: `CTL_POLARITY` is OPEN (R162, D6). -/
def ctlLevel (b : Bool) : Bool := if b then Config.ctlPolarity else !Config.ctlPolarity

/-- The longest a nominal delay may last: `DELAY_TOL` is OPEN (R161, D5). It lasts at least its nominal time. -/
def longestDelay (ms : Nat) : Nat := ms + Config.delayTol

end Sys2Proof.Machine
end

