-- ==== Sys2Proof/Machine/Ops.lean ====
section
/-! DEFINITION. The shared operations: the buffers, the transport's primitives, ending a request, raising a failure,
refusing a request, admission, and the block's reset. -/

namespace Sys2Proof.Machine

/-! ## Buffers -/

/-- A list with its entries from offset `k` on overwritten by `v`, as far as the list goes. -/
def overlayList : List Byte → Nat → List Byte → List Byte
  | buf, _, [] => buf
  | [], _, _ :: _ => []
  | _ :: bs, 0, x :: xs => x :: overlayList bs 0 xs
  | b :: bs, k + 1, xs => b :: overlayList bs k xs

theorem overlayList_length (buf : List Byte) (k : Nat) (v : List Byte) :
    (overlayList buf k v).length = buf.length := by
  fun_induction overlayList <;> simp_all

/-- `BUF[k .. k+len(v)-1] <- v`; the other bytes of the buffer stay. -/
def overlay {n : Nat} (buf : Vector Byte n) (k : Nat) (v : List Byte) : Vector Byte n :=
  ⟨(overlayList buf.toList k v).toArray, by simp [overlayList_length]⟩

/-! ## The end of a request -/

/-- A request ends: `RESULT` is written and answered to the host, `OP <- NONE`, `PHASE <- IDLE` (R21, R24, R189). -/
def finish (r : Result) (s : State) : State :=
  { s with result := r, replies := s.replies ++ [r], op := .none, phase := .idle }

/-- Taking a failure, `raise K(info)` (R221): the one operation by which every typed failure is taken. A failed OPEN
leaves `SESS` as it is (CLOSED); every other failure enters FAILED. There is no return from a failure (R223): CLOSE
is the only way out of FAILED. -/
def raiseFailure (f : Failure) (x : Option Exchange) (s : State) : State :=
  let s' := finish (.fail f s.op x) s
  if s.op = .openPort then s' else { s' with sess := .failed }

/-- `refuse(reason)` at IDLE (R224). -/
def refuse (r : Reason) (s : State) : State := finish (.refused r) s

/-- `refuse(Busy)`: answered to the requester, no state of the engine changes (R224). -/
def refuseBusy (s : State) : State := { s with replies := s.replies ++ [.refused .busy] }

/-! ## The transport's primitives -/

/-- `SetCtl(b)` (R162). -/
def setCtl (b : Bool) (s : State) : State := { s with ctl := b, hist := s.hist ++ [.ctl b] }

/-- `Delay(ms)` (R161): when it is over, no time is left of it. -/
def delay (ms : Nat) (s : State) : State := { s with timer := 0, hist := s.hist ++ [.delay ms] }

/-- The transport's answer to the next open (D23). -/
def openAnswer (s : State) : Bool × State :=
  match s.opens with
  | a :: rest => (a, { s with opens := rest })
  | [] => (Config.freeOpenOk s.draws, { s with draws := s.draws + 1 })

/-- The transport's answer to the next write (R53). -/
def writeAnswer (s : State) : WriteAnswer × State :=
  match s.writes with
  | a :: rest => (a, { s with writes := rest })
  | [] =>
    (if Config.freeWriteOk s.draws then .ok else .error (Config.freeSent s.draws), { s with draws := s.draws + 1 })

/-- `MemWrite(TX, n, v)` (R53): whether it was answered ok, and the state after. With an error a prefix of the bytes
has reached the line. -/
def memWrite (v : List Byte) (s : State) : Bool × State :=
  match writeAnswer s with
  | (.ok, s') => (true, { s' with tx := s'.tx ++ v, hist := s'.hist ++ [.tx v true] })
  | (.error k, s') => (false, { s' with tx := s'.tx ++ v.take k, hist := s'.hist ++ [.tx v false] })

/-- A read has ended with the bytes `r` of `n` asked for: it is recorded, and `TIMER` holds what was left of the
bound, nothing if it ran out (R34, R54, R68). -/
def endRead (n : Nat) (r : List Byte) (s : State) : State :=
  { s with
    hist := s.hist ++ [.rx n r]
    timer := if r.length < n then 0 else min Config.readTimeout (Config.freeTimeLeft s.draws)
    draws := s.draws + 1 }

/-- What the environment answers to a read of `n` bytes (R54, R56). -/
def readAnswer (n : Nat) (s : State) : List Byte × State :=
  match pull n s.rx with
  | (t, rest, false) => (t, { s with rx := rest })
  | (t, rest, true) => ((t ++ Config.freeRead s.draws).take n, { s with rx := rest, draws := s.draws + 1 })

/-- `MemRead(RX, n)` (R54). -/
def memRead (n : Nat) (s : State) : List Byte × State :=
  match readAnswer n s with
  | (r, s') => (r, endRead n r s')

/-! ## The steps of an exchange (R133, R181) -/

/-- `C_ENC`, `D_ENC`: the frame goes into `TXBUF`; no status of an earlier exchange survives (R181). -/
def encodeStep (f : List Byte) (next : Phase) (s : State) : State :=
  { s with statusV := false, txbuf := overlay s.txbuf 0 f, txlen := f.length, phase := next }

/-- `C_TX`, `D_TX`: the frame is written, once, verbatim (R166). -/
def writeStep (next : Phase) (x : Exchange) (s : State) : State :=
  match memWrite s.txFrame s with
  | (true, s') => { s' with phase := next }
  | (false, s') => raiseFailure .transportWrite (some x) s'

/-- The header read has brought `h` (R133, R134). -/
def takeHeader (h : List Byte) (next : Phase) (x : Exchange) (s : State) : State :=
  let s' := { s with statusV := false, rxbuf := overlay s.rxbuf 0 h, rxlen := h.length }
  if h.length < Config.hdrRead then raiseFailure (.framing Config.hdrRead h.length) (some x) s'
  else { s' with phase := next }

/-- The tail read of `n` bytes has brought `t` (R133, R135, R136). -/
def takeTail (n : Nat) (t : List Byte) (next : Phase) (x : Exchange) (s : State) : State :=
  let s' := { s with rxbuf := overlay s.rxbuf Config.hdrRead t, rxlen := Config.hdrRead + t.length }
  if t.length < n then raiseFailure (.framing n t.length) (some x) s'
  else { s' with status := s'.rxbuf[Config.statusOffset], statusV := true, phase := next }

/-- `C_RXH`, `D_RXH`. -/
def headerStep (next : Phase) (x : Exchange) (s : State) : State :=
  match memRead Config.hdrRead s with
  | (h, s') => takeHeader h next x s'

/-- `C_RXT`, `D_RXT`: the count comes from the LEN byte just read (R94). -/
def tailStep (next : Phase) (x : Exchange) (s : State) : State :=
  let n := tailCount s.rxbuf[1]
  match memRead n s with
  | (t, s') => takeTail n t next x s'

/-- `C_CHK`, `D_CHK`: the status byte is judged (R182, R186, R189). The only test is whether it is ACK (R152). -/
def judge (b : Byte) (s : State) : State :=
  if s.phase = .dChk then
    if b = Config.stAck then finish .ok s
    else raiseFailure (.protocol b (statusName b)) (some .data) s
  else if s.op = .blankCheck then finish (.statusReturned b) s
  else if b = Config.stAck then
    if s.op.twoPhase then { s with phase := .dEnc } else finish .ok s
  else raiseFailure (.protocol b (statusName b)) (some .command) s

/-! ## Admission (R160, R163, R168, R180) -/

/-- The command is admitted: `OP`, and `BLK` and `DATA` where the command has them, are sampled (R67, R180). -/
def startCommand (op : Op) (s : State) : State := { s with op := op, statusV := false, phase := .cEnc }

/-- A command without operands. -/
def admitPlain (op : Op) (s : State) : State :=
  match s.sess with
  | .closed | .opened => refuse .noSession s
  | .failed => refuse .sessionFailed s
  | .synced => startCommand op s

/-- A command on a block. -/
def admitBlock (op : Op) (n : Nat) (s : State) : State :=
  match s.sess with
  | .closed | .opened => refuse .noSession s
  | .failed => refuse .sessionFailed s
  | .synced =>
    if n > Config.maxBlock then refuse .blockOutOfRange s
    else startCommand op { s with blk := BitVec.ofNat Config.blockBits n }

/-- A command on a block with a payload. -/
def admitPayload (op : Op) (n : Nat) (p : List Byte) (s : State) : State :=
  match s.sess with
  | .closed | .opened => refuse .noSession s
  | .failed => refuse .sessionFailed s
  | .synced =>
    if n > Config.maxBlock then refuse .blockOutOfRange s
    else match payloadOf p with
      | none => refuse (.badPayloadLength p.length) s
      | some d => startCommand op { s with blk := BitVec.ofNat Config.blockBits n, data := d }

/-- OPEN (R160). The port's name is sampled. -/
def admitOpen (port : String) (s : State) : State :=
  match s.sess with
  | .closed => { s with op := .openPort, port := port, phase := .opening }
  | .opened | .synced | .failed => refuse .alreadyOpen s

/-- RESET_AND_SYNC (R163). -/
def admitResetAndSync (s : State) : State :=
  match s.sess with
  | .closed => refuse .notOpen s
  | .opened => { s with op := .resetAndSync, phase := .hs0 }
  | .synced => refuse .alreadySynced s
  | .failed => refuse .sessionFailed s

/-- CLOSE (R168): admitted in every session state. -/
def admitClose (s : State) : State := { s with op := .close, phase := .closing }

/-- A request that finds the engine idle. -/
def admitRequest (q : Request) (s : State) : State :=
  match q with
  | .openPort port => admitOpen port s
  | .resetAndSync => admitResetAndSync s
  | .cmdReset => admitPlain .cmdReset s
  | .chipErase => admitPlain .chipErase s
  | .blockErase n => admitBlock .blockErase n s
  | .blankCheck n => admitBlock .blankCheck n s
  | .program n p => admitPayload .program n p s
  | .verify n p => admitPayload .verify n p s
  | .close => admitClose s

/-- A request at the host port: `Busy` is the first check (R180), admission the rest. -/
def post (q : Request) (s : State) : State := if s.phase = .idle then admitRequest q s else refuseBusy s

/-- The payload that comes with a request stands at the host port (R230, R253). -/
def supply (q : Request) (s : State) : State :=
  match q with
  | .program _ p | .verify _ p => { s with offer := p }
  | .openPort _ | .resetAndSync | .cmdReset | .chipErase | .blockErase _ | .blankCheck _ | .close => s

/-! ## The block's reset (R250) -/

/-- The bytes a write at this phase is sending. -/
def bytesOnTheWay (s : State) : List Byte :=
  match s.phase with
  | .hs6 | .hs8 => [Config.syncByte]
  | .cTx | .dTx => s.txFrame
  | _ => []

/-- `HRESET` (R250): the engine takes its reset values; a write under way has sent a prefix; the environment is not
reset. -/
def hreset (sent : Nat) (s : State) : State :=
  { State.reset with
    tx := s.tx ++ (bytesOnTheWay s).take sent
    rx := s.rx
    opens := s.opens
    writes := s.writes
    offer := s.offer
    inputs := s.inputs
    replies := s.replies
    draws := s.draws }

end Sys2Proof.Machine
end

