-- ==== Sys2Proof/Machine/Session.lean ====
section
/-! DEFINITION. The transport session: OPEN, the handshake, CLOSE (R160 to R170), and the sequencer, which does one
phase at a time (R28, R29, R189). -/

namespace Sys2Proof.Machine

/-- `OPENING` (R160). The stream `TX` begins with a successful OPEN (R51). -/
def openStep (s : State) : State :=
  match openAnswer s with
  | (true, s') => finish .ok { s' with hist := s'.hist ++ [.opened s'.port true], tx := [], sess := .opened }
  | (false, s') => raiseFailure .transportOpen none { s' with hist := s'.hist ++ [.opened s'.port false] }

/-- `HS6`, `HS8`: one sync byte (R163, R164). -/
def syncStep (next : Phase) (s : State) : State :=
  match memWrite [Config.syncByte] s with
  | (true, s') => { s' with phase := next }
  | (false, s') => raiseFailure .transportWrite none s'

/-- `CLOSING` (R168): without a port nothing happens and nothing is recorded. -/
def closeStep (s : State) : State :=
  if s.sess = .closed then finish .ok s
  else finish .ok { s with hist := s.hist ++ [.closed], sess := .closed }

/-- One phase of the sequencer (R29). At IDLE the engine holds its state (R232). -/
def tick (s : State) : State :=
  match s.phase with
  | .idle => s
  | .opening => openStep s
  | .hs0 => { setCtl true s with phase := .hs1 }
  | .hs1 => { delay Config.tShort s with phase := .hs2 }
  | .hs2 => { setCtl false s with phase := .hs3 }
  | .hs3 => { delay Config.tShort s with phase := .hs4 }
  | .hs4 => { setCtl true s with phase := .hs5 }
  | .hs5 => { delay Config.tLong s with phase := .hs6 }
  | .hs6 => syncStep .hs7 s
  | .hs7 => { delay Config.tShort s with phase := .hs8 }
  | .hs8 => syncStep .hs9 s
  | .hs9 => finish .ok { delay Config.tShort s with sess := .synced }
  | .cEnc => encodeStep (commandFrame s.op s.blk) .cTx s
  | .cTx => writeStep .cRxh .command s
  | .cRxh => headerStep .cRxt .command s
  | .cRxt => tailStep .cChk .command s
  | .cChk => judge s.status s
  | .dEnc => encodeStep (encodeData s.data) .dTx s
  | .dTx => writeStep .dRxh .data s
  | .dRxh => headerStep .dRxt .data s
  | .dRxt => tailStep .dChk .data s
  | .dChk => judge s.status s
  | .closing => closeStep s

/-- That many phases. -/
def ticks : Nat → State → State
  | 0, s => s
  | k + 1, s => ticks k (tick s)

/-- No operation has more phases than this: ten in the handshake and in a two-phase command (R29, R189). -/
def longestOperation : Nat := 10

/-- A request with all its phases: an operation runs from its first phase to IDLE (R28). -/
def callOp (q : Request) (s : State) : State :=
  if s.phase = .idle then ticks longestOperation (post q s) else post q s

/-- SYNC: the sync byte is RESET_AND_SYNC's, and to execute it is that operation (R163; log entry 9). -/
def execSync (s : State) : Host.Outcome State Fault Refusal := .next (callOp .resetAndSync s)

end Sys2Proof.Machine
end

