-- ==== Sys2Proof/Machine/Commands.lean ====
section
/-! DEFINITION. The meanings of the six commands (R183 to R188): the request and the whole of its operation. The phases
are those of the sequencer. -/

namespace Sys2Proof.Machine

/-- `Reset()` (R183). -/
def execCmdReset (s : State) : Host.Outcome State Fault Refusal := .next (callOp .cmdReset s)

/-- `ChipErase()` (R184). -/
def execChipErase (s : State) : Host.Outcome State Fault Refusal := .next (callOp .chipErase s)

/-- `BlockErase(block)` (R185). -/
def execBlockErase (block : Nat) (s : State) : Host.Outcome State Fault Refusal := .next (callOp (.blockErase block) s)

/-- `BlankCheckBlock(block)` (R186). -/
def execBlankCheck (block : Nat) (s : State) : Host.Outcome State Fault Refusal := .next (callOp (.blankCheck block) s)

/-- `ProgramBlock(block, data)` (R187), with the payload at the host port. -/
def execProgram (block : Nat) (s : State) : Host.Outcome State Fault Refusal :=
  .next (callOp (.program block s.offer) s)

/-- `VerifyBlock(block, data)` (R188), with the payload at the host port. -/
def execVerify (block : Nat) (s : State) : Host.Outcome State Fault Refusal :=
  .next (callOp (.verify block s.offer) s)

end Sys2Proof.Machine
end

