-- ==== Sys2Proof/Machine/Frames.lean ====
section
/-! DEFINITION. The meanings of the data frame (R132) and of the response (R133). -/

namespace Sys2Proof.Machine

/-- DATA: the data frame of the payload is built and written (phases `D_ENC` and `D_TX`, R132, R187, R188). -/
def execData (payload : Payload) (s : State) : Host.Outcome State Fault Refusal :=
  if s.phase = .dEnc then .next (writeStep .dRxh .data (encodeStep (encodeData payload) .dTx s))
  else .fault .notAtItsPhase

/-- `decode_response()` on the bytes of one response (R133): the header read, then the tail read of `LEN + 2` bytes.
Bytes beyond that stay in the receive stream (R135). -/
def decodeResponseStep (stx len status : Byte) (rest : List Byte) (mid next : Phase) (x : Exchange) (s : State) :
    State :=
  let s1 := takeHeader [stx, len] mid x (endRead Config.hdrRead [stx, len] s)
  let n := tailCount len
  let t := (status :: rest).take n
  let s2 := { s1 with rx := ((status :: rest).drop n).map .byte ++ s1.rx }
  takeTail n t next x (endRead n t s2)

/-- RESP: the engine reads this response (R133). -/
def execResp (stx len status : Byte) (rest : List Byte) (s : State) : Host.Outcome State Fault Refusal :=
  if s.phase = .cRxh then .next (decodeResponseStep stx len status rest .cRxt .cChk .command s)
  else if s.phase = .dRxh then .next (decodeResponseStep stx len status rest .dRxt .dChk .data s)
  else .fault .notAtItsPhase

end Sys2Proof.Machine
end

