-- ==== Sys2Proof/Machine/StatusBytes.lean ====
section
/-! DEFINITION. The meanings of the 13 listed status bytes (R150): the check phase judges the status (R182, R189). -/

namespace Sys2Proof.Machine

/-- A status byte is judged by the check phase of its exchange, and by nothing else. -/
def judgeAtCheck (b : Byte) (s : State) : Host.Outcome State Fault Refusal :=
  if s.phase.judges then .next (judge b s) else .fault .notAtItsPhase

/-- Status 0x00 "no data" (R150). -/
def execStatus00 (s : State) : Host.Outcome State Fault Refusal := judgeAtCheck 0x00#8 s

/-- Status 0x04 "command number error" (R150). -/
def execStatus04 (s : State) : Host.Outcome State Fault Refusal := judgeAtCheck 0x04#8 s

/-- Status 0x05 "parameter error" (R150). -/
def execStatus05 (s : State) : Host.Outcome State Fault Refusal := judgeAtCheck 0x05#8 s

/-- Status 0x06 "ACK" (R150). -/
def execStatus06 (s : State) : Host.Outcome State Fault Refusal := judgeAtCheck Config.stAck s

/-- Status 0x07 "checksum error" (R150). -/
def execStatus07 (s : State) : Host.Outcome State Fault Refusal := judgeAtCheck 0x07#8 s

/-- Status 0x0F "verify error" (R150). -/
def execStatus0F (s : State) : Host.Outcome State Fault Refusal := judgeAtCheck 0x0F#8 s

/-- Status 0x10 "protect error" (R150). -/
def execStatus10 (s : State) : Host.Outcome State Fault Refusal := judgeAtCheck 0x10#8 s

/-- Status 0x15 "NACK" (R150). -/
def execStatus15 (s : State) : Host.Outcome State Fault Refusal := judgeAtCheck 0x15#8 s

/-- Status 0x1A "MRG10 error" (R150). -/
def execStatus1A (s : State) : Host.Outcome State Fault Refusal := judgeAtCheck 0x1A#8 s

/-- Status 0x1B "MRG11 error" (R150). -/
def execStatus1B (s : State) : Host.Outcome State Fault Refusal := judgeAtCheck 0x1B#8 s

/-- Status 0x1C "write error" (R150). -/
def execStatus1C (s : State) : Host.Outcome State Fault Refusal := judgeAtCheck 0x1C#8 s

/-- Status 0x20 "read error" (R150). -/
def execStatus20 (s : State) : Host.Outcome State Fault Refusal := judgeAtCheck 0x20#8 s

/-- Status 0xFF "busy" (R150). -/
def execStatusFF (s : State) : Host.Outcome State Fault Refusal := judgeAtCheck 0xFF#8 s

end Sys2Proof.Machine
end

