-- ==== Sys2Proof/Machine/Dispatch.lean ====
section
/-! DEFINITION. The dispatch: one arm per constructor of Instr. -/

namespace Sys2Proof.Machine

/-- What an instruction does. -/
def exec (i : Instr) (s : State) : Host.Outcome State Fault Refusal :=
  match i with
  -- the six commands (R183 to R188)
  | .cmdReset => Sys2Proof.Machine.execCmdReset s
  | .chipErase => Sys2Proof.Machine.execChipErase s
  | .blockErase block => Sys2Proof.Machine.execBlockErase block s
  | .blankCheck block => Sys2Proof.Machine.execBlankCheck block s
  | .program block => Sys2Proof.Machine.execProgram block s
  | .verify block => Sys2Proof.Machine.execVerify block s
  -- the frames of an exchange (R132, R133) and the sync byte (R163)
  | .data payload => Sys2Proof.Machine.execData payload s
  | .resp stx len status rest => Sys2Proof.Machine.execResp stx len status rest s
  | .sync => Sys2Proof.Machine.execSync s
  -- the status bytes (R150)
  | .status00 => Sys2Proof.Machine.execStatus00 s
  | .status04 => Sys2Proof.Machine.execStatus04 s
  | .status05 => Sys2Proof.Machine.execStatus05 s
  | .status06 => Sys2Proof.Machine.execStatus06 s
  | .status07 => Sys2Proof.Machine.execStatus07 s
  | .status0F => Sys2Proof.Machine.execStatus0F s
  | .status10 => Sys2Proof.Machine.execStatus10 s
  | .status15 => Sys2Proof.Machine.execStatus15 s
  | .status1A => Sys2Proof.Machine.execStatus1A s
  | .status1B => Sys2Proof.Machine.execStatus1B s
  | .status1C => Sys2Proof.Machine.execStatus1C s
  | .status20 => Sys2Proof.Machine.execStatus20 s
  | .statusFF => Sys2Proof.Machine.execStatusFF s

end Sys2Proof.Machine
end

