-- ==== Sys2Proof/Machine/Fetch.lean ====
section
/-! DEFINITION. The three ways a step meets an instruction: by a request of the host, by a request named by its wire
item, by the wire item at the engine's own phase. -/

namespace Sys2Proof.Machine

/-- The instruction a request is, for the requests that have a row in the opcode table (R80). -/
def Request.instr : Request → Option Instr
  | .resetAndSync => some .sync
  | .cmdReset => some .cmdReset
  | .chipErase => some .chipErase
  | .blockErase n => some (.blockErase n)
  | .blankCheck n => some (.blankCheck n)
  | .program n _ => some (.program n)
  | .verify n _ => some (.verify n)
  | .openPort _ | .close => none

/-- A request of a host that waits. OPEN and CLOSE have no row in the opcode table (R80); their operations run here. -/
def runCall (q : Request) (s : State) : Host.Outcome State Fault Refusal :=
  match q.instr with
  | some i => exec i (supply q s)
  | none => .next (callOp q s)

/-- A request named by its wire item. -/
def runFrame (f : List Byte) (s : State) : Host.Outcome State Fault Refusal :=
  match decode .request f with
  | .ok i => exec i s
  | .error e => .refused (.notARequest e)

/-- The wire item at the engine's phase. Where there is no whole item (a phase that handles none, a response that is
not all there, a status that has no row) the engine does its next phase. -/
def runItem (s : State) : Host.Outcome State Fault Refusal :=
  match fetchItem s with
  | some (f, s') =>
    match decode s.phase.position f with
    | .ok i => exec i s'
    | .error _ => .next (tick s)
  | none => .next (tick s)

/-- What the next input has the machine do. -/
def runInput (x : Input) (s : State) : Host.Outcome State Fault Refusal :=
  match x with
  | .quiet => .next (tick s)
  | .item => runItem s
  | .call q => runCall q s
  | .frame f => runFrame f s
  | .post q => .next (post q (supply q s))
  | .hreset sent => .next (hreset sent s)

/-- The state in which the wire item `i`, whose bytes are `f`, is what the next step runs: the request stands first
among the inputs, or the engine stands at the phase that handles the item, with the item in its place. -/
def place (i : Instr) (f : List Byte) (s : State) : State :=
  match i.position with
  | .request => { s with phase := .idle, inputs := .frame f :: s.inputs }
  | .data =>
    { s with phase := .dEnc, data := (payloadOf ((f.drop 2).take Config.dataLen)).getD s.data, inputs := .item :: s.inputs }
  | .response =>
    { s with
      phase := if s.phase = .dRxh then .dRxh else .cRxh
      rx := f.map .byte ++ s.rx
      inputs := .item :: s.inputs }
  | .status =>
    { s with
      phase := if s.phase = .dChk then .dChk else .cChk
      status := byteAt f 0
      statusV := true
      inputs := .item :: s.inputs }

/-- A word of the opcode table in its place; a word that is no item is offered as a request. -/
def placeWord (nbits w : Nat) (s : State) : State :=
  match decodeTableWord nbits w with
  | some i => place i (tableBytes nbits w) s
  | none => { s with phase := .idle, inputs := .frame (tableBytes nbits w) :: s.inputs }

end Sys2Proof.Machine
end

