-- ==== Sys2Proof/Machine/Step.lean ====
section
/-! DEFINITION. One step of the machine: the next input from outside is taken and run; where nothing comes from
outside, the engine does its next phase. -/

namespace Sys2Proof.Machine

/-- One step. -/
def step (s : State) : Host.Outcome State Fault Refusal :=
  match s.inputs with
  | [] => runInput .quiet s
  | x :: rest => runInput x { s with inputs := rest }

/-- The state in which the next step runs the instruction of a table word (log entry 10). -/
def State.withFetchWord (s : State) (nbits w : Nat) : State := placeWord nbits w s

end Sys2Proof.Machine
end

