-- ==== Sys2Proof/WellFormed.lean ====
section
/-! DEFINITION. Which instructions are ones the hardware can have on the wire. -/

namespace Sys2Proof

/-- A block index has 14 bits (R22, R60); a response has exactly as many bytes as its LEN says (R92, R94). Every
other field is bounded by its type. -/
def Instr.wellFormed : Instr → Bool
  | .blockErase n | .blankCheck n | .program n | .verify n => decide (n ≤ Config.maxBlock)
  | .resp _ len _ rest => decide (rest.length + 1 = tailCount len)
  | .cmdReset | .chipErase | .data _ | .sync => true
  | .status00 | .status04 | .status05 | .status06 | .status07 | .status0F | .status10 | .status15 | .status1A
  | .status1B | .status1C | .status20 | .statusFF => true

end Sys2Proof
end

