-- ==== Sys2Proof/Safety.lean ====
section
/-! DEFINITION. What a safe run is: the trace properties of HIST (R51, R165, R190, R226) and the invariant of the
machine that carries them. -/

namespace Sys2Proof.Machine

/-! ## Properties of what was sent -/

/-- Whether bytes are a wire item that the engine sends: a sync byte, one of the six command frames on one of the 16384
blocks, or a data frame (R51). The decoder accepts exactly the encodings of instructions. -/
def isSent (f : List Byte) : Bool :=
  (decode .request f).toOption.isSome || (decode .data f).toOption.isSome

/-- Everything the engine writes is a sync byte, a command frame or a data frame (R51). -/
def sendsFrame : Event → Bool
  | .tx f _ => isSent f
  | .opened _ _ | .ctl _ | .delay _ | .rx _ _ | .closed => true

/-- Of the events before a data frame, newest first: the two reads of a complete response whose status is ACK, and
the write of a Program or Verify command frame (R190). -/
def ackedTwoPhase : List Event → Bool
  | .rx nt t :: .rx nh h :: .tx f true :: _ =>
    nh == Config.hdrRead && h.length == Config.hdrRead && nt == tailCount (byteAt h 1) && t.length == nt
      && byteAt (h ++ t) Config.statusOffset == Config.stAck && f.length == 11 && byteAt f 0 == Config.stxCmd
      && byteAt f 1 == Config.lenAddr && (byteAt f 2 == Config.cmdProgram || byteAt f 2 == Config.cmdVerify)
  | _ => false

/-- No data frame without the ACK of its command (R190), over the events newest first. -/
def dataFramesJustified : List Event → Bool
  | [] => true
  | .tx f _ :: older => (byteAt f 0 != Config.stxData || ackedTwoPhase older) && dataFramesJustified older
  | _ :: older => dataFramesJustified older

/-- The events of a successful handshake (R165). -/
def handshake : List Event :=
  [.ctl true, .delay 11, .ctl false, .delay 11, .ctl true, .delay 400, .tx [0x00#8] true, .delay 11, .tx [0x00#8] true,
    .delay 11]

/-- An event of an exchange. -/
def Event.isTransfer : Event → Bool
  | .tx _ _ | .rx _ _ => true
  | .opened _ _ | .ctl _ | .delay _ | .closed => false

/-- How many events of the handshake lie behind a phase (R164). -/
def Phase.handshakeDone : Phase → Nat
  | .hs1 => 1
  | .hs2 => 2
  | .hs3 => 3
  | .hs4 => 4
  | .hs5 => 5
  | .hs6 => 6
  | .hs7 => 7
  | .hs8 => 8
  | .hs9 => 9
  | _ => 0

/-! ## What exchanges leave -/

/-- What every request leaves as it was: the control line, the port, and what the environment holds for later. -/
def State.KeepsSession (s t : State) : Prop :=
  t.ctl = s.ctl ∧ t.port = s.port ∧ t.opens = s.opens ∧ t.offer = s.offer ∧ t.inputs = s.inputs

/-- One exchange from `s` to `t` (R181, R133): the frame `f` is sent in one write, the response is read in two reads
and decoded, its third byte is the status, the request ends and is answered. Buffer bytes beyond the frame and beyond
the response stay. -/
def State.OneExchange (s t : State) (f : List Byte) (stx len b : Byte) (rest : List Byte) : Prop :=
  t.hist = s.hist ++ [.tx f true, .rx 2 [stx, len], .rx (len.toNat + 2) (b :: rest)]
    ∧ t.tx = s.tx ++ f
    ∧ t.txFrame = f ∧ (∀ i (h : i < 260), f.length ≤ i → t.txbuf[i] = s.txbuf[i])
    ∧ t.rxFrame = stx :: len :: b :: rest ∧ (∀ i (h : i < 259), len.toNat + 4 ≤ i → t.rxbuf[i] = s.rxbuf[i])
    ∧ t.status = b ∧ t.statusV = true ∧ t.phase = .idle ∧ t.op = .none ∧ t.replies = s.replies ++ [t.result]
    ∧ s.KeepsSession t

/-- Two exchanges from `s` to `t`: the command frame `f`, its response with status ACK, the data frame `g`, its
response with status `b` (R187, R188). The buffers hold the data exchange. -/
def State.TwoExchanges (s t : State) (f : List Byte) (stx len : Byte) (rest : List Byte) (g : List Byte)
    (stx' len' b : Byte) (rest' : List Byte) : Prop :=
  t.hist = s.hist ++ [.tx f true, .rx 2 [stx, len], .rx (len.toNat + 2) (Config.stAck :: rest), .tx g true,
      .rx 2 [stx', len'], .rx (len'.toNat + 2) (b :: rest')]
    ∧ t.tx = s.tx ++ f ++ g
    ∧ t.txFrame = g
    ∧ t.rxFrame = stx' :: len' :: b :: rest'
    ∧ (∀ i (h : i < 259), len.toNat + 4 ≤ i → len'.toNat + 4 ≤ i → t.rxbuf[i] = s.rxbuf[i])
    ∧ t.status = b ∧ t.statusV = true ∧ t.phase = .idle ∧ t.op = .none ∧ t.replies = s.replies ++ [t.result]
    ∧ s.KeepsSession t

/-- The outcome of a command that requires ACK, by the status it got (R182, R221). -/
def State.JudgedAs (t : State) (op : Op) (x : Exchange) (b : Byte) : Prop :=
  (b = Config.stAck → t.result = .ok ∧ t.sess = .synced)
    ∧ (b ≠ Config.stAck → t.result = .fail (.protocol b (statusName b)) op (some x) ∧ t.sess = .failed)

/-! ## The invariant -/

/-- The six commands (R80). -/
def Op.isCommand : Op → Bool
  | .cmdReset | .chipErase | .blockErase | .blankCheck | .program | .verify => true
  | .none | .openPort | .resetAndSync | .close => false

/-- Operation, session and phase belong together (R28, R29, R180, R226). -/
def State.PhaseFits (s : State) : Prop :=
  match s.phase with
  | .idle => s.op = .none
  | .opening => s.op = .openPort ∧ s.sess = .closed
  | .hs0 | .hs1 | .hs2 | .hs3 | .hs4 | .hs5 | .hs6 | .hs7 | .hs8 | .hs9 => s.op = .resetAndSync ∧ s.sess = .opened
  | .cEnc | .cTx | .cRxh | .cRxt | .cChk => s.op.isCommand = true ∧ s.sess = .synced
  | .dEnc | .dTx | .dRxh | .dRxt | .dChk => s.op.twoPhase = true ∧ s.sess = .synced
  | .closing => s.op = .close

/-- The buffers' lengths stay in their ranges (R26, R27). -/
def State.LengthsFit (s : State) : Prop := s.txlen ≤ 260 ∧ s.rxlen ≤ 259

/-- The control line is asserted throughout a session (R33), and follows the handshake (R163). -/
def State.CtlFits (s : State) : Prop :=
  match s.phase with
  | .hs1 | .hs2 | .hs5 | .hs6 | .hs7 | .hs8 | .hs9 => s.ctl = true
  | .hs3 | .hs4 => s.ctl = false
  | _ => s.sess = .synced → s.ctl = true

/-- The history fits the session: an OPEN session has its open and the handshake so far as its last events, a SYNCED
one its open, one whole handshake, and only transfers since (R163 to R165, R226). -/
def State.SessionFits (s : State) : Prop :=
  match s.sess with
  | .opened => ∃ pre, s.hist = pre ++ Event.opened s.port true :: handshake.take s.phase.handshakeDone
  | .synced =>
    ∃ pre post, s.hist = pre ++ Event.opened s.port true :: (handshake ++ post) ∧ post.all Event.isTransfer = true
  | .closed | .failed => True

/-- The history and the buffers fit the exchange under way (R181, R133). -/
def State.ExchangeFits (s : State) : Prop :=
  match s.phase with
  | .cTx => s.txFrame = commandFrame s.op s.blk
  | .cRxh => ∃ pre, s.hist = pre ++ [.tx (commandFrame s.op s.blk) true]
  | .cRxt =>
    ∃ pre h, s.hist = pre ++ [.tx (commandFrame s.op s.blk) true, .rx 2 h] ∧ s.rxFrame = h ∧ h.length = 2
  | .cChk =>
    ∃ pre h t, s.hist = pre ++ [.tx (commandFrame s.op s.blk) true, .rx 2 h, .rx (tailCount (byteAt h 1)) t]
      ∧ s.rxFrame = h ++ t ∧ h.length = 2 ∧ t.length = tailCount (byteAt h 1) ∧ s.status = byteAt (h ++ t) 2
      ∧ s.statusV = true
  | .dEnc => ackedTwoPhase s.hist.reverse = true
  | .dTx => ackedTwoPhase s.hist.reverse = true ∧ s.txFrame = encodeData s.data
  | .dRxt => s.rxlen = 2
  | .dChk => s.statusV = true ∧ s.status = byteAt s.rxFrame 2
  | _ => True

/-- Nothing but sync bytes, command frames and data frames was sent, and every data frame had its ACK (R51, R190). -/
def State.SentFits (s : State) : Prop :=
  s.hist.all sendsFrame = true ∧ dataFramesJustified s.hist.reverse = true

/-- The invariant of the machine. -/
def State.Inv (s : State) : Prop :=
  s.PhaseFits ∧ s.LengthsFit ∧ s.CtlFits ∧ s.SessionFits ∧ s.ExchangeFits ∧ s.SentFits

end Sys2Proof.Machine
end

