-- ==== Sys2Proof/Certificates/Slice0/Obligations.lean ====
section
/-! DEFINITION. The statements for the provers. -/

open Sys2Proof Sys2Proof.Machine

/-! ## The checksum, the frames, the encodings -/

/-- R122: the four other forms of the checksum, for every frame buffer within the contract of R120: a wrapping
accumulator, two's complement, the byte that makes the sum a multiple of 256 and no other, a subtracting
accumulator. -/
def Obligations.ChecksumEquivalentForms : Prop :=
  ∀ (buf : List Byte) (n : Nat), 1 ≤ n → n ≤ 256 → n + 2 ≤ buf.length →
    let span := (buf.drop 1).take (n + 1)
    let acc := span.foldl (fun (a : Nat) b => (a + b.toNat) % 256) 0
    (crc buf n).toNat = (256 - acc) % 256
      ∧ (crc buf n).toNat = ((acc ^^^ 0xFF) + 1) % 256
      ∧ (∀ c : Byte, (byteSum span + c.toNat) % 256 = 0 ↔ c = crc buf n)
      ∧ crc buf n = span.foldl (fun (a : Byte) b => a - b) 0

/-- R121 and R125 f: the checksum does not depend on the order of the summed bytes nor on the start byte. -/
def Obligations.ChecksumIgnoresOrderAndStart : Prop :=
  ∀ (a b : Byte) (s t : List Byte), s.Perm t → crc (a :: s) (s.length - 1) = crc (b :: t) (t.length - 1)

/-- R85: the address bytes of every block, by the 24-bit addresses and by the 14 bits of the index. -/
def Obligations.AddressBytesFromBlockIndex : Prop :=
  ∀ n : Nat, n ≤ 16383 →
    (startAddress n).toNat = n * 1024 ∧ (endAddress n).toNat = n * 1024 + 1023
      ∧ addressBytes n = be24 (startAddress n) ++ be24 (endAddress n)
      ∧ addressBytes n = [BitVec.ofNat 8 (n / 64), BitVec.ofNat 8 (n % 64 * 4), 0x00#8,
          BitVec.ofNat 8 (n / 64), BitVec.ofNat 8 (n % 64 * 4 + 3), 0xFF#8]

/-- R142: the lengths of encoded frames and of a decoded response, the last byte, and the sum. -/
def Obligations.EncodedFramesHaveLengthEndAndZeroSum : Prop :=
  (∀ (c : Byte) (a : List Byte), a.length ≤ 6 →
    (encodeCommand c a).length = a.length + 5
      ∧ byteAt (encodeCommand c a) ((encodeCommand c a).length - 1) = 0x03#8
      ∧ byteSum (((encodeCommand c a).drop 1).take ((encodeCommand c a).length - 2)) % 256 = 0)
  ∧ (∀ p : Vector Byte 256,
    (encodeData p).length = 260
      ∧ byteAt (encodeData p) 259 = 0x03#8
      ∧ byteSum (((encodeData p).drop 1).take 258) % 256 = 0)
  ∧ (∀ (raw : List Byte) (i : Instr), decode .response raw = .ok i → raw.length = (byteAt raw 1).toNat + 4)

/-- R90: the bytes of the four block-scoped command frames, with the closed form of their checksum. -/
def Obligations.BlockFramesByteByByte : Prop :=
  ∀ (c : Byte) (n : Nat), n ≤ 16383 →
    let s2 := BitVec.ofNat 8 (n / 64)
    let s1 := BitVec.ofNat 8 (n % 64 * 4)
    blockFrame c n = [0x01#8, 0x07#8, c, s2, s1, 0x00#8, s2, s1 + 3#8, 0xFF#8,
      0xF7#8 - c - 2#8 * s2 - 2#8 * s1, 0x03#8]

/-- R91: the data frame byte by byte. -/
def Obligations.DataFrameByteByByte : Prop :=
  ∀ p : Vector Byte 256,
    byteAt (encodeData p) 0 = 0x02#8 ∧ byteAt (encodeData p) 1 = 0x00#8
      ∧ (∀ i (h : i < 256), byteAt (encodeData p) (i + 2) = p[i])
      ∧ byteAt (encodeData p) 258 = BitVec.ofInt 8 (0 - (byteSum p.toList : Int))
      ∧ byteAt (encodeData p) 259 = 0x03#8 ∧ (encodeData p).length = 260

/-- R141: a command frame parses back, reads as a response with its command byte as the status, and its address bytes
give the block back. -/
def Obligations.CommandFrameRoundTrips : Prop :=
  (∀ (c : Byte) (a : List Byte), a.length = 0 ∨ a.length = 6 →
    parseCommandFrame (encodeCommand c a) = some (c, a)
      ∧ ∃ stx len rest, decode .response (encodeCommand c a) = .ok (.resp stx len c rest)
        ∧ stx :: len :: c :: rest = encodeCommand c a)
  ∧ (∀ n : Nat, n ≤ 16383 →
    let a := addressBytes n
    unbe24 (byteAt a 0) (byteAt a 1) (byteAt a 2) / 1024 = n
      ∧ unbe24 (byteAt a 3) (byteAt a 4) (byteAt a 5) = unbe24 (byteAt a 0) (byteAt a 1) (byteAt a 2) + 1023)

/-- Decoding the encoding of a well-formed instruction gives it back, for all instructions and operands. -/
def Obligations.DecodeInvertsEncode : Prop :=
  ∀ i : Instr, i.wellFormed = true → decode i.position (encode i) = .ok i

/-- Whatever the decoder accepts is exactly the encoding of a well-formed instruction at that position: no bit of the
bytes is dropped. -/
def Obligations.EncodeInvertsDecode : Prop :=
  ∀ (p : Position) (f : List Byte) (i : Instr), decode p f = .ok i →
    encode i = f ∧ i.position = p ∧ i.wellFormed = true

/-- Words written out from the formats of the spec decode to what they stand for; a frame whose checksum is wrong, a
byte that is no status and a command byte outside the table do not. -/
def Obligations.SpecWordsDecode : Prop :=
  decode .request [0x01, 0x01, 0x00, 0xFF, 0x03] = .ok .cmdReset
    ∧ decode .request [0x01, 0x01, 0x20, 0xDF, 0x03] = .ok .chipErase
    ∧ decode .request [0x01, 0x07, 0x22, 0x00, 0x08, 0x00, 0x00, 0x0B, 0xFF, 0xC5, 0x03] = .ok (.blockErase 2)
    ∧ decode .request [0x01, 0x07, 0x13, 0xFF, 0xFC, 0x00, 0xFF, 0xFF, 0xFF, 0xEE, 0x03] = .ok (.verify 16383)
    ∧ decode .response [0xAA, 0x01, 0x06, 0x00, 0x00] = .ok (.resp 0xAA 0x01 0x06 [0x00, 0x00])
    ∧ decode .request [0x00] = .ok .sync
    ∧ decode .status [0x00] = .ok .status00
    ∧ decode .status [0x15] = .ok .status15
    ∧ decode .request [0x01, 0x01, 0x00, 0xFE, 0x03] = .error (.badCrc 0xFE)
    ∧ decode .status [0x42] = .error (.unlistedStatus 0x42)
    ∧ decode .request [0x01, 0x01, 0x21, 0xDE, 0x03] = .error (.noCommand 0x21)

/-! ## The status table -/

/-- R150 and R151: the table of the 13 codes with their names and classes, and that every other byte is UNKNOWN; the
listed bytes are those that decode as a status. -/
def Obligations.StatusTable : Prop :=
  let table : List (Byte × String × StatusClass) :=
    [(0x00#8, "no data", .error .noData), (0x04#8, "command number error", .error .commandNumberError),
      (0x05#8, "parameter error", .error .parameterError), (0x06#8, "ACK", .ack),
      (0x07#8, "checksum error", .error .checksumError), (0x0F#8, "verify error", .error .verifyError),
      (0x10#8, "protect error", .error .protectError), (0x15#8, "NACK", .nack),
      (0x1A#8, "MRG10 error", .error .mrg10Error), (0x1B#8, "MRG11 error", .error .mrg11Error),
      (0x1C#8, "write error", .error .writeError), (0x20#8, "read error", .error .readError), (0xFF#8, "busy", .busy)]
  (∀ r ∈ table, statusName r.1 = r.2.1 ∧ statusClass r.1 = r.2.2)
    ∧ ∀ b : Byte, ((∃ i, decode .status [b] = .ok i) ↔ b ∈ table.map (·.1))
      ∧ (b ∉ table.map (·.1) → statusName b = "unknown status" ∧ statusClass b = .unknown)

/-- R154: the 13 names are different and none is empty, and so are the classes. -/
def Obligations.StatusNamesDistinct : Prop :=
  ∀ a b : Byte, statusClass a ≠ .unknown → statusClass b ≠ .unknown →
    statusName a ≠ "" ∧ (statusName a = statusName b → a = b) ∧ (statusClass a = statusClass b → a = b)

/-! ## The sequencer and the failures -/

/-- R221: what taking a failure does, and that it does nothing else. -/
def Obligations.FailureEntry : Prop :=
  ∀ (f : Failure) (x : Option Exchange) (s : State),
    raiseFailure f x s =
      { s with
        result := .fail f s.op x
        replies := s.replies ++ [.fail f s.op x]
        sess := if s.op = .openPort then s.sess else .failed
        op := .none
        phase := .idle }

/-- R224: a refusal changes nothing but RESULT, OP (and the host's record of answers); Busy changes nothing at all of
the engine. -/
def Obligations.RefusalsChangeNothingElse : Prop :=
  (∀ (r : Reason) (s : State), s.phase = .idle →
    refuse r s = { s with result := .refused r, op := .none, replies := s.replies ++ [.refused r] })
  ∧ (∀ (q : Request) (s : State), s.phase ≠ .idle → post q s = { s with replies := s.replies ++ [.refused .busy] })

/-- R180: the admission of the six commands, with the order of the checks. That operands which a command does not have
stay, and STATUS too, is the model's: log entries 7 and 5. -/
def Obligations.CommandAdmissionOrder : Prop :=
  ∀ s : State,
    (∀ q n p, q = Request.program n p ∨ q = Request.verify n p →
      post q s =
        if s.phase ≠ .idle then refuseBusy s
        else if s.sess = .closed ∨ s.sess = .opened then refuse .noSession s
        else if s.sess = .failed then refuse .sessionFailed s
        else if n > 16383 then refuse .blockOutOfRange s
        else if h : p.length ≠ 256 then refuse (.badPayloadLength p.length) s
        else { s with
          op := if q = .program n p then .program else .verify
          blk := BitVec.ofNat 14 n
          data := ⟨p.toArray, by simpa using h⟩
          statusV := false
          phase := .cEnc })
    ∧ (∀ q n, q = Request.blockErase n ∨ q = Request.blankCheck n →
      post q s =
        if s.phase ≠ .idle then refuseBusy s
        else if s.sess = .closed ∨ s.sess = .opened then refuse .noSession s
        else if s.sess = .failed then refuse .sessionFailed s
        else if n > 16383 then refuse .blockOutOfRange s
        else { s with
          op := if q = .blockErase n then .blockErase else .blankCheck
          blk := BitVec.ofNat 14 n
          statusV := false
          phase := .cEnc })
    ∧ (∀ q, q = Request.cmdReset ∨ q = Request.chipErase →
      post q s =
        if s.phase ≠ .idle then refuseBusy s
        else if s.sess = .closed ∨ s.sess = .opened then refuse .noSession s
        else if s.sess = .failed then refuse .sessionFailed s
        else { s with
          op := if q = .cmdReset then .cmdReset else .chipErase
          statusV := false
          phase := .cEnc })

/-- R189, the rows after admission: what each phase of an exchange leads to, what it reports, and that OP is NONE on
every arrival at IDLE. The premise is the invariant that operation, session and phase belong together. -/
def Obligations.ExchangePhaseTransitions : Prop :=
  ∀ s : State, s.PhaseFits →
    let t := tick s
    let failed (x : Exchange) (f : Failure) : Prop :=
      t.phase = .idle ∧ t.op = .none ∧ t.sess = .failed ∧ t.result = .fail f s.op (some x)
    let done (r : Result) : Prop := t.phase = .idle ∧ t.op = .none ∧ t.sess = .synced ∧ t.result = r
    let goes (p : Phase) : Prop := t.phase = p ∧ t.op = s.op ∧ t.sess = .synced ∧ t.result = s.result
    (s.phase = .cEnc → goes .cTx) ∧ (s.phase = .dEnc → goes .dTx)
      ∧ (s.phase = .cTx → goes .cRxh ∧ t.hist = s.hist ++ [.tx s.txFrame true]
          ∨ failed .command .transportWrite ∧ t.hist = s.hist ++ [.tx s.txFrame false])
      ∧ (s.phase = .dTx → goes .dRxh ∧ t.hist = s.hist ++ [.tx s.txFrame true]
          ∨ failed .data .transportWrite ∧ t.hist = s.hist ++ [.tx s.txFrame false])
      ∧ (s.phase = .cRxh → ∃ h, t.hist = s.hist ++ [.rx 2 h] ∧
          (h.length = 2 ∧ goes .cRxt ∨ h.length < 2 ∧ failed .command (.framing 2 h.length)))
      ∧ (s.phase = .dRxh → ∃ h, t.hist = s.hist ++ [.rx 2 h] ∧
          (h.length = 2 ∧ goes .dRxt ∨ h.length < 2 ∧ failed .data (.framing 2 h.length)))
      ∧ (s.phase = .cRxt → ∃ v, t.hist = s.hist ++ [.rx (s.rxbuf[1].toNat + 2) v] ∧
          (v.length = s.rxbuf[1].toNat + 2 ∧ goes .cChk ∧ t.status = byteAt v 0
            ∨ v.length < s.rxbuf[1].toNat + 2 ∧ failed .command (.framing (s.rxbuf[1].toNat + 2) v.length)))
      ∧ (s.phase = .dRxt → ∃ v, t.hist = s.hist ++ [.rx (s.rxbuf[1].toNat + 2) v] ∧
          (v.length = s.rxbuf[1].toNat + 2 ∧ goes .dChk ∧ t.status = byteAt v 0
            ∨ v.length < s.rxbuf[1].toNat + 2 ∧ failed .data (.framing (s.rxbuf[1].toNat + 2) v.length)))
      ∧ (s.phase = .cChk → s.op = .blankCheck → done (.statusReturned s.status))
      ∧ (s.phase = .cChk → s.status = 0x06#8 → s.op ∈ [.cmdReset, .chipErase, .blockErase] → done .ok)
      ∧ (s.phase = .cChk → s.status = 0x06#8 → s.op ∈ [.program, .verify] → goes .dEnc)
      ∧ (s.phase = .cChk → s.status ≠ 0x06#8 → s.op ≠ .blankCheck →
          failed .command (.protocol s.status (statusName s.status)))
      ∧ (s.phase = .dChk → s.status = 0x06#8 → done .ok)
      ∧ (s.phase = .dChk → s.status ≠ 0x06#8 → failed .data (.protocol s.status (statusName s.status)))

/-- R54 and R52: a read of `n` bytes that lie at the front of the stream brings exactly those, in order, and leaves
the rest, also a silence right behind them; the bytes before a silence are consumed and the read is short. The silence
as an item is the model's: log entry 4. -/
def Obligations.ReadTakesTheFrontOfTheStream : Prop :=
  ∀ (s : State) (v : List Byte) (r : List RxItem),
    (s.rx = v.map .byte ++ r →
      (memRead v.length s).1 = v ∧ (memRead v.length s).2.rx = r
        ∧ (memRead v.length s).2.hist = s.hist ++ [.rx v.length v])
    ∧ (∀ n, v.length < n → s.rx = v.map .byte ++ .silence :: r →
      (memRead n s).1 = v ∧ (memRead n s).2.rx = r ∧ (memRead n s).2.hist = s.hist ++ [.rx n v])

/-- R56: any answer of at most `n` bytes is possible, whatever the engine's state, and no other is. -/
def Obligations.EveryReadAnswerIsAdmitted : Prop :=
  ∀ (s : State) (n : Nat) (v : List Byte),
    (∃ rx, (memRead n { s with rx := rx }).1 = v) ↔ v.length ≤ n

/-- The model's reading of R34 (log entry 6): when a delay or a read that timed out is over, no time is left of it;
when a read is over that got all its bytes, at most the bound is left. How much is open. -/
def Obligations.TimerShowsTheTimeLeft : Prop :=
  ∀ (s : State) (ms n : Nat),
    (delay ms s).timer = 0 ∧ (memRead n s).2.timer ≤ 1000
      ∧ ((memRead n s).1.length < n → (memRead n s).2.timer = 0)

/-- R53: a write answered ok puts all its bytes on the line, one answered with an error a prefix of them; each is
recorded once; nothing else of the engine changes. How the answer is found is the model's: log entry 3. -/
def Obligations.WriteAppendsAllOrAPrefix : Prop :=
  ∀ (s : State) (v : List Byte),
    let t := (memWrite v s).2
    ((memWrite v s).1 = true → t.tx = s.tx ++ v ∧ t.hist = s.hist ++ [.tx v true])
      ∧ ((memWrite v s).1 = false → (∃ k, t.tx = s.tx ++ v.take k) ∧ t.hist = s.hist ++ [.tx v false])
      ∧ t = { s with tx := t.tx, hist := t.hist, writes := t.writes, draws := t.draws }

/-- R53: after a failed write every prefix, from none to all, is possible. How the answer is found is the model's: log
entry 3. -/
def Obligations.EveryPrefixIsPossibleAfterAFailedWrite : Prop :=
  ∀ (s : State) (v v' : List Byte), v' <+: v →
    ∃ a, (memWrite v { s with writes := [a] }).1 = false ∧ (memWrite v { s with writes := [a] }).2.tx = s.tx ++ v'

/-! ## The operations -/

/-- R160: OPEN from IDLE. In SESS = CLOSED the port is taken and the transport's answer decides; otherwise the request
is refused. When PORT is sampled and that TX begins anew is the model's: log entries 7 and 17. -/
def Obligations.OpenOperation : Prop :=
  ∀ (s : State) (port : String), s.phase = .idle →
    (s.sess = .closed →
      (∀ o, s.opens = true :: o → callOp (.openPort port) s =
        { s with
          port := port, sess := .opened, result := .ok, op := .none, opens := o, tx := []
          hist := s.hist ++ [.opened port true], replies := s.replies ++ [.ok] })
      ∧ (∀ o, s.opens = false :: o → callOp (.openPort port) s =
        { s with
          port := port, result := .fail .transportOpen .openPort none, op := .none, opens := o
          hist := s.hist ++ [.opened port false], replies := s.replies ++ [.fail .transportOpen .openPort none] }))
    ∧ (s.sess ≠ .closed → callOp (.openPort port) s =
        { s with result := .refused .alreadyOpen, op := .none, replies := s.replies ++ [.refused .alreadyOpen] })

/-- R163 and R165: the handshake, when both sync bytes are written, is exactly the ten events of R165 in their order,
and leaves the session SYNCED and the line asserted. This is where SYNC completes. That SYNC is the whole operation is
the model's: log entry 9. -/
def Obligations.HandshakeCompletes : Prop :=
  ∀ (s : State) (w : List WriteAnswer), s.phase = .idle → s.sess = .opened → s.writes = .ok :: .ok :: w →
    ∃ tm, exec .sync s = .next
      { s with
        hist := s.hist ++ [.ctl true, .delay 11, .ctl false, .delay 11, .ctl true, .delay 400, .tx [0x00#8] true,
          .delay 11, .tx [0x00#8] true, .delay 11]
        tx := s.tx ++ [0x00#8, 0x00#8], ctl := true, sess := .synced, op := .none, result := .ok, timer := tm
        writes := w, replies := s.replies ++ [.ok] }

/-- R163: what the handshake does where it does not complete: a sync byte that cannot be written ends it there, with
the remaining steps not performed; it is refused in every session state but OPEN. That SYNC is the whole operation is
the model's: log entry 9. -/
def Obligations.HandshakeFailuresAndRefusals : Prop :=
  ∀ s : State, s.phase = .idle →
    (∀ w k, s.sess = .opened → s.writes = .error k :: w → ∃ t, exec .sync s = .next t
      ∧ t.hist = s.hist ++ [.ctl true, .delay 11, .ctl false, .delay 11, .ctl true, .delay 400, .tx [0x00#8] false]
      ∧ t.result = .fail .transportWrite .resetAndSync none ∧ t.sess = .failed ∧ t.ctl = true ∧ t.phase = .idle)
    ∧ (∀ w k, s.sess = .opened → s.writes = .ok :: .error k :: w → ∃ t, exec .sync s = .next t
      ∧ t.hist = s.hist ++ [.ctl true, .delay 11, .ctl false, .delay 11, .ctl true, .delay 400, .tx [0x00#8] true,
          .delay 11, .tx [0x00#8] false]
      ∧ t.result = .fail .transportWrite .resetAndSync none ∧ t.sess = .failed ∧ t.ctl = true ∧ t.phase = .idle)
    ∧ (s.sess = .closed → exec .sync s = .next (refuse .notOpen s))
    ∧ (s.sess = .synced → exec .sync s = .next (refuse .alreadySynced s))
    ∧ (s.sess = .failed → exec .sync s = .next (refuse .sessionFailed s))

/-- R168: CLOSE from IDLE, in every session state. That CTL, RX and TX stay is the model's: log entries 22, 18 and 17
(R33 and R40 have CLOSE write no CTL; the level of the physical line is open, R168). -/
def Obligations.CloseOperation : Prop :=
  ∀ s : State, s.phase = .idle →
    (s.sess = .closed → callOp .close s = { s with result := .ok, op := .none, replies := s.replies ++ [.ok] })
    ∧ (s.sess ≠ .closed → callOp .close s =
        { s with
          sess := .closed, hist := s.hist ++ [.closed], result := .ok, op := .none
          replies := s.replies ++ [.ok] })

/-- R183, R184: Reset and ChipErase complete on any complete response: their constant frame, one exchange, judged by
the status. BLK and DATA are not touched. BLK and DATA staying is log entry 7. -/
def Obligations.PlainCommandsComplete : Prop :=
  ∀ (s : State) (w : List WriteAnswer) (stx len b : Byte) (rest : List Byte) (r : List RxItem),
    s.phase = .idle → s.sess = .synced → s.writes = .ok :: w →
    s.rx = (stx :: len :: b :: rest).map .byte ++ r → rest.length = len.toNat + 1 →
    (∃ t, exec .cmdReset s = .next t ∧ s.OneExchange t [0x01#8, 0x01#8, 0x00#8, 0xFF#8, 0x03#8] stx len b rest
      ∧ t.JudgedAs .cmdReset .command b ∧ t.rx = r ∧ t.writes = w ∧ t.blk = s.blk ∧ t.data = s.data)
    ∧ (∃ t, exec .chipErase s = .next t ∧ s.OneExchange t [0x01#8, 0x01#8, 0x20#8, 0xDF#8, 0x03#8] stx len b rest
      ∧ t.JudgedAs .chipErase .command b ∧ t.rx = r ∧ t.writes = w ∧ t.blk = s.blk ∧ t.data = s.data)

/-- R185: BlockErase completes on any complete response. That DATA stays is the model's choice: log entry 7. -/
def Obligations.BlockEraseCompletes : Prop :=
  ∀ (s : State) (n : Nat) (w : List WriteAnswer) (stx len b : Byte) (rest : List Byte) (r : List RxItem),
    n ≤ 16383 → s.phase = .idle → s.sess = .synced → s.writes = .ok :: w →
    s.rx = (stx :: len :: b :: rest).map .byte ++ r → rest.length = len.toNat + 1 →
    ∃ t, exec (.blockErase n) s = .next t ∧ s.OneExchange t (encodeCommand 0x22#8 (addressBytes n)) stx len b rest
      ∧ t.JudgedAs .blockErase .command b ∧ t.rx = r ∧ t.writes = w ∧ t.blk.toNat = n ∧ t.data = s.data

/-- R186: BlankCheckBlock completes on any complete response, and its result is the status, whatever it is: no status
makes it fail. That DATA stays is the model's choice: log entry 7. -/
def Obligations.BlankCheckCompletes : Prop :=
  ∀ (s : State) (n : Nat) (w : List WriteAnswer) (stx len b : Byte) (rest : List Byte) (r : List RxItem),
    n ≤ 16383 → s.phase = .idle → s.sess = .synced → s.writes = .ok :: w →
    s.rx = (stx :: len :: b :: rest).map .byte ++ r → rest.length = len.toNat + 1 →
    ∃ t, exec (.blankCheck n) s = .next t ∧ s.OneExchange t (encodeCommand 0x32#8 (addressBytes n)) stx len b rest
      ∧ t.result = .statusReturned b ∧ t.sess = .synced
      ∧ t.rx = r ∧ t.writes = w ∧ t.blk.toNat = n ∧ t.data = s.data

/-- R187, R188: ProgramBlock and VerifyBlock complete: the command frame, its ACK, one data frame of the payload at the
host port, its response, judged by that response's status. -/
def Obligations.TwoPhaseCommandsComplete : Prop :=
  ∀ (s : State) (n : Nat) (p : Vector Byte 256) (w : List WriteAnswer) (stx len : Byte) (rest : List Byte)
    (stx' len' b : Byte) (rest' : List Byte) (r : List RxItem),
    n ≤ 16383 → s.offer = p.toList → s.phase = .idle → s.sess = .synced → s.writes = .ok :: .ok :: w →
    s.rx = (stx :: len :: 0x06#8 :: rest).map .byte ++ ((stx' :: len' :: b :: rest').map .byte ++ r) →
    rest.length = len.toNat + 1 → rest'.length = len'.toNat + 1 →
    (∃ t, exec (.program n) s = .next t
      ∧ s.TwoExchanges t (encodeCommand 0x40#8 (addressBytes n)) stx len rest (encodeData p) stx' len' b rest'
      ∧ t.JudgedAs .program .data b ∧ t.rx = r ∧ t.writes = w ∧ t.blk.toNat = n ∧ t.data = p)
    ∧ (∃ t, exec (.verify n) s = .next t
      ∧ s.TwoExchanges t (encodeCommand 0x13#8 (addressBytes n)) stx len rest (encodeData p) stx' len' b rest'
      ∧ t.JudgedAs .verify .data b ∧ t.rx = r ∧ t.writes = w ∧ t.blk.toNat = n ∧ t.data = p)

/-- R187, R188, R190: if the command phase's status is not ACK, the operation ends there and no data frame is sent. -/
def Obligations.RejectedCommandSendsNoData : Prop :=
  ∀ (s : State) (n : Nat) (p : Vector Byte 256) (w : List WriteAnswer) (stx len b : Byte) (rest : List Byte)
    (r : List RxItem),
    n ≤ 16383 → s.offer = p.toList → s.phase = .idle → s.sess = .synced → s.writes = .ok :: w → b ≠ 0x06#8 →
    s.rx = (stx :: len :: b :: rest).map .byte ++ r → rest.length = len.toNat + 1 →
    (∃ t, exec (.program n) s = .next t ∧ s.OneExchange t (encodeCommand 0x40#8 (addressBytes n)) stx len b rest
      ∧ t.JudgedAs .program .command b ∧ t.writes = w)
    ∧ (∃ t, exec (.verify n) s = .next t ∧ s.OneExchange t (encodeCommand 0x13#8 (addressBytes n)) stx len b rest
      ∧ t.JudgedAs .verify .command b ∧ t.writes = w)

/-- R132, R187, R188: DATA at the data phase: the frame of the payload is built in TXBUF and written, once. A write
that fails raises TransportError. At any other phase it is no step of the machine, and stops by name. The stop at
another phase and the STATUS kept are the model's: log entries 14 and 5. -/
def Obligations.DataFrameIsSent : Prop :=
  ∀ (s : State) (p : Vector Byte 256),
    (s.phase = .dEnc → ∀ w, s.writes = .ok :: w → exec (.data p) s = .next
      { s with
        statusV := false, txbuf := overlay s.txbuf 0 (encodeData p), txlen := 260, phase := .dRxh, writes := w
        tx := s.tx ++ encodeData p, hist := s.hist ++ [.tx (encodeData p) true] })
    ∧ (s.phase = .dEnc → s.op ≠ .openPort → ∀ w k, s.writes = .error k :: w → ∃ t, exec (.data p) s = .next t
      ∧ t.result = .fail .transportWrite s.op (some .data) ∧ t.sess = .failed ∧ t.phase = .idle ∧ t.op = .none
      ∧ t.hist = s.hist ++ [.tx (encodeData p) false] ∧ t.tx = s.tx ++ (encodeData p).take k)
    ∧ (s.phase ≠ .dEnc → exec (.data p) s = .fault .notAtItsPhase)

/-- R133 to R138: RESP at a header read, for every response of `LEN + 4` bytes whatever they are: both reads are
recorded, RXBUF holds the raw response, STATUS is the byte at offset 2 and valid, the check follows; nothing else but
TIMER and the count of draws changes. At any other phase it is no step of the machine. The stop at another phase is
the model's: log entry 14. -/
def Obligations.ResponseIsDecoded : Prop :=
  ∀ (s : State) (stx len b : Byte) (rest : List Byte), rest.length = len.toNat + 1 →
    (s.phase = .cRxh ∨ s.phase = .dRxh → ∃ t tm d, exec (.resp stx len b rest) s = .next t
      ∧ t.status = b ∧ t.rxFrame = stx :: len :: b :: rest
      ∧ (∀ i (h : i < 259), len.toNat + 4 ≤ i → t.rxbuf[i] = s.rxbuf[i])
      ∧ t = { s with
          status := b, statusV := true, rxbuf := t.rxbuf, rxlen := len.toNat + 4, timer := tm, draws := d
          phase := if s.phase = .cRxh then .cChk else .dChk
          hist := s.hist ++ [.rx 2 [stx, len], .rx (len.toNat + 2) (b :: rest)] })
    ∧ (s.phase ≠ .cRxh → s.phase ≠ .dRxh → exec (.resp stx len b rest) s = .fault .notAtItsPhase)

/-- R150, R182, R186, R189: each of the 13 status bytes, at the check of the command exchange and at that of the data
exchange: ACK goes on to the data phase or ends the operation well, BLANK_CHECK returns the status, every other status
is a ProtocolError with its name. Nothing else changes. (The invariant has no OPEN at a check phase.) The stop at
another phase is the model's: log entry 14. -/
def Obligations.StatusBytesAreJudged : Prop :=
  ∀ (s : State) (i : Instr) (b : Byte),
    (i, b) ∈ [(Instr.status00, 0x00#8), (.status04, 0x04#8), (.status05, 0x05#8), (.status06, 0x06#8),
      (.status07, 0x07#8), (.status0F, 0x0F#8), (.status10, 0x10#8), (.status15, 0x15#8), (.status1A, 0x1A#8),
      (.status1B, 0x1B#8), (.status1C, 0x1C#8), (.status20, 0x20#8), (.statusFF, 0xFF#8)] →
    s.op ≠ .openPort →
    (s.phase = .cChk → exec i s = .next
      (if s.op = .blankCheck then
        { s with
          result := .statusReturned b, replies := s.replies ++ [.statusReturned b], op := .none, phase := .idle }
      else if b = 0x06#8 then
        if s.op = .program ∨ s.op = .verify then { s with phase := .dEnc }
        else { s with result := .ok, replies := s.replies ++ [.ok], op := .none, phase := .idle }
      else
        { s with
          result := .fail (.protocol b (statusName b)) s.op (some .command)
          replies := s.replies ++ [.fail (.protocol b (statusName b)) s.op (some .command)]
          sess := .failed, op := .none, phase := .idle }))
    ∧ (s.phase = .dChk → exec i s = .next
      (if b = 0x06#8 then { s with result := .ok, replies := s.replies ++ [.ok], op := .none, phase := .idle }
      else
        { s with
          result := .fail (.protocol b (statusName b)) s.op (some .data)
          replies := s.replies ++ [.fail (.protocol b (statusName b)) s.op (some .data)]
          sess := .failed, op := .none, phase := .idle }))
    ∧ (s.phase ≠ .cChk → s.phase ≠ .dChk → exec i s = .fault .notAtItsPhase)

/-! ## Rules over all requests -/

/-- R10: whatever request finds the engine idle, and whatever the environment answers, it ends idle with OP = NONE, and
is answered once, with its result; the result is Ok, a refusal, a failure, or, of a blank check only, a returned
status. -/
def Obligations.EveryRequestEndsInOneOutcome : Prop :=
  ∀ (q : Request) (s : State), s.phase = .idle →
    let t := callOp q s
    t.phase = .idle ∧ t.op = .none ∧ t.replies = s.replies ++ [t.result]
      ∧ (t.result = .ok
        ∨ (∃ r, t.result = .refused r)
        ∨ (∃ b n, q = .blankCheck n ∧ t.result = .statusReturned b ∧ t.status = b ∧ t.statusV = true)
        ∨ ∃ f op x, t.result = .fail f op x ∧ op ∈ [Op.openPort, .resetAndSync, .cmdReset, .chipErase, .blockErase,
            .blankCheck, .program, .verify])

/-- R219: which request can be refused for which reason, and which operation can report which failure. -/
def Obligations.FailuresByOperation : Prop :=
  (∀ (q : Request) (s : State) (r : Reason), (callOp q s).replies = s.replies ++ [.refused r] →
    match q with
    | .openPort _ => r = .alreadyOpen ∨ r = .busy
    | .resetAndSync => r = .notOpen ∨ r = .alreadySynced ∨ r = .sessionFailed ∨ r = .busy
    | .close => r = .busy
    | .cmdReset | .chipErase => r = .noSession ∨ r = .sessionFailed ∨ r = .busy
    | .blockErase _ | .blankCheck _ => r = .noSession ∨ r = .sessionFailed ∨ r = .busy ∨ r = .blockOutOfRange
    | .program _ p | .verify _ p =>
      r = .noSession ∨ r = .sessionFailed ∨ r = .busy ∨ r = .blockOutOfRange ∨ r = .badPayloadLength p.length)
  ∧ ∀ (q : Request) (s : State) (f : Failure) (op : Op) (x : Option Exchange), s.phase = .idle →
    (callOp q s).result = .fail f op x →
    (f = .transportOpen ↔ op = .openPort) ∧ (f = .transportOpen → x = none)
      ∧ (op = .resetAndSync → f = .transportWrite ∧ x = none)
      ∧ op ≠ .close ∧ op ≠ .none
      ∧ (f.kind = .protocolError → op ≠ .blankCheck)
      ∧ (x = some .data → op = .program ∨ op = .verify)
      ∧ (∀ b m, f = .protocol b m → b ≠ 0x06#8 ∧ m = statusName b)
      ∧ (∀ a g, f = .framing a g → g < a)

/-- R222: what survives the failure of a command: the control line, the port and the session's port held (FAILED, not
CLOSED); the status is valid after a ProtocolError and is the one reported, invalid after the other two; RXBUF holds
the bytes received: after a FramingError, the last read's bytes behind those of the header. -/
def Obligations.WhatSurvivesAFailure : Prop :=
  ∀ (i : Instr) (s t : State) (f : Failure) (op : Op) (x : Option Exchange), s.phase = .idle →
    i.position = .request → i ≠ .sync → exec i s = .next t → t.result = .fail f op x →
    t.ctl = s.ctl ∧ t.port = s.port ∧ t.sess = .failed ∧ s.hist <+: t.hist
      ∧ (f = .transportWrite → t.statusV = false)
      ∧ (∀ a g, f = .framing a g → t.statusV = false ∧ ∃ pre h v, t.hist = pre ++ [.rx a v] ∧ v.length = g
        ∧ t.rxFrame = h ++ v ∧ (a = 2 ∧ h = [] ∨ h.length = 2 ∧ a = (byteAt h 1).toNat + 2))
      ∧ (∀ b m, f = .protocol b m → t.statusV = true ∧ t.status = b ∧ byteAt t.rxFrame 2 = b
        ∧ t.rxlen = (byteAt t.rxFrame 1).toNat + 4)

/-- R67: what the host holds at its port, and what it asks for, while an operation runs: the phases do not see it. How
a request comes in is the model's: log entry 13. -/
def Obligations.RunningOperationIgnoresTheHost : Prop :=
  (∀ (s : State) (p : List Byte) (xs : List Input) (k : Nat),
    ticks k { s with offer := p, inputs := xs } = { ticks k s with offer := p, inputs := xs })
  ∧ ∀ (s : State) (q : Request) (xs : List Input), s.phase ≠ .idle → s.inputs = .post q :: xs →
    ∃ p, step s = .next { s with offer := p, inputs := xs, replies := s.replies ++ [.refused .busy] }

/-- R190 and R192, and the counts that follow from R189: an operation sends at most two frames and makes at most four
reads, one for each header and each tail; a command other than Program and Verify sends at most one frame. -/
def Obligations.OperationsDoNotLoop : Prop :=
  ∀ (q : Request) (s : State), s.phase = .idle → ∃ es, (callOp q s).hist = s.hist ++ es
    ∧ (es.filter (fun e => match e with | .tx _ _ => true | _ => false)).length ≤ 2
    ∧ (es.filter (fun e => match e with | .rx _ _ => true | _ => false)).length ≤ 4
    ∧ (∀ n, q = .cmdReset ∨ q = .chipErase ∨ q = .blockErase n ∨ q = .blankCheck n →
      (es.filter (fun e => match e with | .tx _ _ => true | _ => false)).length ≤ 1)

/-- R270: every operation ends: from any phase, ten phases later the engine is idle, whatever is answered. -/
def Obligations.EveryOperationEnds : Prop := ∀ s : State, (ticks 10 s).phase = .idle

/-- R33, R40, R222: what no command request changes, however it ends: the control line, the port, the host's payload
and the answers to opens; the history and the line only grow; BLK only with a block operand, DATA only with a payload.
BLK and DATA staying is log entry 7. -/
def Obligations.CommandsKeepTheRest : Prop :=
  ∀ (i : Instr) (s t : State), exec i s = .next t → i.position = .request → i ≠ .sync →
    s.KeepsSession t ∧ s.hist <+: t.hist ∧ s.tx <+: t.tx
      ∧ ((i = .cmdReset ∨ i = .chipErase) → t.blk = s.blk)
      ∧ ((∀ n, i ≠ .program n ∧ i ≠ .verify n) → t.data = s.data)

/-- R168, R223, R225 and property 4 of the vectors: in SESS = FAILED nothing but CLOSE does anything: every other
request is refused, and no event follows until the Close. -/
def Obligations.FailedSessionIsSilent : Prop :=
  ∀ (s : State) (q : Request), s.phase = .idle → s.sess = .failed → q ≠ .close →
    ∃ r, callOp q s = { s with result := .refused r, op := .none, replies := s.replies ++ [.refused r] }
      ∧ (r = .alreadyOpen ∨ r = .sessionFailed)

/-- R250: HRESET from any state. That TX keeps its bytes is the model's: log entry 8. -/
def Obligations.HresetFromAnyState : Prop :=
  ∀ (sent : Nat) (s : State),
    let t := hreset sent s
    t.sess = .closed ∧ t.phase = .idle ∧ t.op = .none ∧ t.result = .none ∧ t.statusV = false ∧ t.rxlen = 0
      ∧ t.hist = []
      ∧ (∃ v, t.tx = s.tx ++ v
        ∧ (s.phase = .cTx ∨ s.phase = .dTx → v <+: s.txFrame)
        ∧ (s.phase = .hs6 ∨ s.phase = .hs8 → v <+: [0x00#8])
        ∧ (s.phase ∉ [.cTx, .dTx, .hs6, .hs8] → v = []))

/-! ## The step -/

/-- A step with nothing left from outside does one phase; with an input it takes that input and runs it: a phase, a
request with all its phases, a request's admission, HRESET. When a request's bytes decode to a well-formed instruction,
the step is exec of it; when they do not, it is refused by name. When the phase's wire item decodes, the step is exec
of it, with the receive stream moved past the response; where there is no whole item, it is the next phase. How
requests come in is the model's: log entries 10, 13 and 21. -/
def Obligations.StepRunsTheDecodedInstruction : Prop :=
  (∀ s : State, s.inputs = [] → step s = .next (tick s))
  ∧ (∀ (s : State) (xs : List Input), s.inputs = .quiet :: xs → step s = .next (tick { s with inputs := xs }))
  ∧ (∀ (s : State) (xs : List Input) (q : Request), s.inputs = .call q :: xs →
    step s = .next (callOp q (supply q { s with inputs := xs })))
  ∧ (∀ (s : State) (xs : List Input) (q : Request), s.inputs = .post q :: xs →
    step s = .next (post q (supply q { s with inputs := xs })))
  ∧ (∀ (s : State) (xs : List Input) (sent : Nat), s.inputs = .hreset sent :: xs →
    step s = .next (hreset sent { s with inputs := xs }))
  ∧ (∀ (s : State) (f : List Byte) (xs : List Input) (i : Instr), s.inputs = .frame f :: xs →
    decode .request f = .ok i → step s = exec i { s with inputs := xs })
  ∧ (∀ (s : State) (f : List Byte) (xs : List Input) (e : DecodeError), s.inputs = .frame f :: xs →
    decode .request f = .error e → step s = .refused (.notARequest e))
  ∧ (∀ (s : State) (xs : List Input), s.inputs = .item :: xs → s.phase = .dEnc →
    step s = exec (.data s.data) { s with inputs := xs })
  ∧ (∀ (s : State) (xs : List Input) (stx len b : Byte) (rest : List Byte) (r : List RxItem),
    s.inputs = .item :: xs → s.phase = .cRxh ∨ s.phase = .dRxh → rest.length = len.toNat + 1 →
    s.rx = (stx :: len :: b :: rest).map .byte ++ r →
    step s = exec (.resp stx len b rest) { s with inputs := xs, rx := r })
  ∧ (∀ (s : State) (xs : List Input), s.inputs = .item :: xs → s.phase = .cRxh ∨ s.phase = .dRxh →
    (∀ stx len b rest r, rest.length = len.toNat + 1 → s.rx ≠ (stx :: len :: b :: rest).map .byte ++ r) →
    step s = .next (tick { s with inputs := xs }))
  ∧ (∀ (s : State) (xs : List Input) (i : Instr), s.inputs = .item :: xs → s.phase = .cChk ∨ s.phase = .dChk →
    decode .status [s.status] = .ok i → step s = exec i { s with inputs := xs })
  ∧ (∀ (s : State) (xs : List Input) (e : DecodeError), s.inputs = .item :: xs → s.phase = .cChk ∨ s.phase = .dChk →
    decode .status [s.status] = .error e → step s = .next (tick { s with inputs := xs }))
  ∧ (∀ (s : State) (xs : List Input), s.inputs = .item :: xs →
    s.phase ∉ [.dEnc, .cRxh, .dRxh, .cChk, .dChk] → step s = .next (tick { s with inputs := xs }))

/-- A request that the host waits for comes to the same as one it does not wait for, followed by ten phases in which
nothing comes from outside: the whole-operation meanings are the phase-by-phase sequencer's. The two ways of a request
are the model's: log entry 13. -/
def Obligations.CallIsPostThenPhases : Prop :=
  ∀ (q : Request) (s : State), s.phase = .idle →
    Sys2Proof.core.run 1 { s with inputs := [.call q] } = Sys2Proof.core.run 11 { s with inputs := [.post q] }

/-- The wire item at a phase comes to the same as its phases one by one: two for a data frame and for a complete
response, one for a status. The grain of an input is the model's: log entry 13. -/
def Obligations.ItemIsItsPhases : Prop :=
  ∀ (s : State) (stx len b : Byte) (rest : List Byte) (r : List RxItem),
    (s.phase = .dEnc →
      Sys2Proof.core.run 1 { s with inputs := [.item] } = Sys2Proof.core.run 2 { s with inputs := [] })
    ∧ (s.phase = .cRxh ∨ s.phase = .dRxh → rest.length = len.toNat + 1 →
      s.rx = (stx :: len :: b :: rest).map .byte ++ r →
      Sys2Proof.core.run 1 { s with inputs := [.item] } = Sys2Proof.core.run 2 { s with inputs := [] })
    ∧ (s.phase = .cChk ∨ s.phase = .dChk →
      Sys2Proof.core.run 1 { s with inputs := [.item] } = Sys2Proof.core.run 1 { s with inputs := [] })

/-- R226: the session's transitions, for every step of the machine from every state that meets the invariant. -/
def Obligations.SessionTransitions : Prop :=
  ∀ s t : State, s.Inv → step s = .next t → t.sess ≠ s.sess →
    (s.sess = .closed ∧ t.sess = .opened ∧ t.result = .ok)
      ∨ (s.sess = .opened ∧ t.sess = .synced ∧ t.result = .ok ∧ t.ctl = true)
      ∨ (s.sess = .opened ∧ t.sess = .failed ∧ t.result = .fail .transportWrite .resetAndSync none)
      ∨ (s.sess = .synced ∧ t.sess = .failed ∧ ∃ f op x, t.result = .fail f op (some x))
      ∨ (t.sess = .closed ∧ t.result = .ok)
      ∨ (t.sess = .closed ∧ t.result = .none ∧ t.hist = [])

/-- Property 5 of the vectors (R124, R136, R137): of a response only LEN, as a count, and the status byte matter: two
responses that agree in these two leave states that differ in RXBUF and in what HIST recorded of the reads only. -/
def Obligations.OnlyLenAndStatusMatter : Prop :=
  ∀ (s t t' : State) (stx stx' len b : Byte) (rest rest' : List Byte),
    rest.length = len.toNat + 1 → rest'.length = len.toNat + 1 →
    exec (.resp stx len b rest) s = .next t → exec (.resp stx' len b rest') s = .next t' →
    t' = { t with rxbuf := t'.rxbuf, hist := t'.hist } ∧ t'.rxbuf[1] = t.rxbuf[1] ∧ t'.rxbuf[2] = t.rxbuf[2]

/-- The same over a whole command of one exchange: RESULT, SESS, the status and everything sent are the same. -/
def Obligations.OnlyLenAndStatusDecideACommand : Prop :=
  ∀ (s : State) (i : Instr) (stx stx' len b : Byte) (rest rest' : List Byte) (r : List RxItem) (t t' : State),
    (i = .cmdReset ∨ i = .chipErase ∨ (∃ n, i = .blockErase n) ∨ ∃ n, i = .blankCheck n) →
    rest.length = len.toNat + 1 → rest'.length = len.toNat + 1 →
    exec i { s with rx := (stx :: len :: b :: rest).map .byte ++ r } = .next t →
    exec i { s with rx := (stx' :: len :: b :: rest').map .byte ++ r } = .next t' →
    t.result = t'.result ∧ t.sess = t'.sess ∧ t.tx = t'.tx ∧ t.status = t'.status ∧ t.statusV = t'.statusV
      ∧ t.replies = t'.replies ∧ t.phase = t'.phase

/-- The invariant holds after reset. -/
def Obligations.ResetMeetsInvariant : Prop := State.reset.Inv

/-- R51, R164, R165, R190, R226: every step of the machine keeps the invariant, from every state that meets it:
operation, session and phase belong together; the control line follows the handshake and stays asserted in a session;
a SYNCED session has exactly one whole handshake behind its open; nothing but sync bytes, command frames and data
frames is sent; no data frame is written without the ACK of its Program or Verify command right before it. -/
def Obligations.StepKeepsInvariant : Prop := ∀ s t : State, s.Inv → step s = .next t → t.Inv

/-- R190 and R51 of every run: however long the machine runs, from reset in any environment, no data frame is in HIST
without the ACK of its command, and nothing is sent but sync bytes, command frames and data frames. -/
def Obligations.RunsSendNoUnacknowledgedData : Prop :=
  ∀ (k : Nat) (rx : List RxItem) (opens : List Bool) (writes : List WriteAnswer) (inputs : List Input) (t : State),
    Sys2Proof.core.run k
        { State.reset with rx := rx, opens := opens, writes := writes, inputs := inputs } = .next t →
    dataFramesJustified t.hist.reverse = true ∧ t.hist.all sendsFrame = true

/-- R193 and R155: the result code a host derives, and its reading of a blank check. -/
def Obligations.ResultCodes : Prop :=
  exitCode .ok = some 0 ∧ (∀ f op x, exitCode (.fail f op x) = some 2)
    ∧ (∀ b, exitCode (.statusReturned b) = some (if b = 0x06#8 then 0 else 2)) ∧ (∀ r, exitCode (.refused r) = some 2)
    ∧ ∀ b : Byte, blank b =
      if b = 0x06#8 then .blank else if b = 0x0F#8 then .nonBlank else .checkFailed (statusClass b)

/-- R39: the values after reset that the spec gives. -/
def Obligations.ResetState : Prop :=
  State.reset.sess = .closed ∧ State.reset.phase = .idle ∧ State.reset.op = .none ∧ State.reset.result = .none
    ∧ State.reset.statusV = false ∧ State.reset.rxlen = 0 ∧ State.reset.hist = []
end

