-- ==== Sys2Proof/Laws/Codec.lean ====
section
/-! SUPPORT. The codec at the sizes that the constants of R4 have: byte order and lengths. -/

namespace Sys2Proof

/-- The three bytes of an address (R8). -/
theorem be24_eq (a : Addr) : be24 a = [a.extractLsb' 16 8, a.extractLsb' 8 8, a.extractLsb' 0 8] := rfl

/-- Three bytes are the number of R8. -/
theorem unbe_three (x y z : Byte) : unbe [x, y, z] = unbe24 x y z := by
  simp only [unbe, unbe24, List.foldl_cons, List.foldl_nil]
  omega

/-- The address that the decoder reads from address bytes (R85, R141). -/
theorem unbe_take (a : List Byte) (h : 3 ≤ a.length) :
    unbe (a.take Config.addrBytes) = unbe24 (byteAt a 0) (byteAt a 1) (byteAt a 2) := by
  match a, h with
  | x :: y :: z :: a, _ => exact unbe_three x y z

theorem addressBytes_length (n : Nat) : (addressBytes n).length = 6 := rfl

theorem encodeCommand_length (c : Byte) (a : List Byte) : (encodeCommand c a).length = a.length + 5 := by
  simp [encodeCommand]

theorem encodeData_length (p : Payload) : (encodeData p).length = 260 := by simp [encodeData]

end Sys2Proof
end

