-- ==== Sys2Proof/Laws/State.lean ====
section
/-! SUPPORT. One lemma per field for each shared update of the state, so that no proof unfolds a record update. -/

namespace Sys2Proof.Machine

variable (s : State)

/-! ### finish -/

@[simp] theorem finish_op (r : Result) : (finish r s).op = .none := rfl
@[simp] theorem finish_blk (r : Result) : (finish r s).blk = s.blk := rfl
@[simp] theorem finish_data (r : Result) : (finish r s).data = s.data := rfl
@[simp] theorem finish_status (r : Result) : (finish r s).status = s.status := rfl
@[simp] theorem finish_statusV (r : Result) : (finish r s).statusV = s.statusV := rfl
@[simp] theorem finish_result (r : Result) : (finish r s).result = r := rfl
@[simp] theorem finish_txbuf (r : Result) : (finish r s).txbuf = s.txbuf := rfl
@[simp] theorem finish_txlen (r : Result) : (finish r s).txlen = s.txlen := rfl
@[simp] theorem finish_rxbuf (r : Result) : (finish r s).rxbuf = s.rxbuf := rfl
@[simp] theorem finish_rxlen (r : Result) : (finish r s).rxlen = s.rxlen := rfl
@[simp] theorem finish_phase (r : Result) : (finish r s).phase = .idle := rfl
@[simp] theorem finish_sess (r : Result) : (finish r s).sess = s.sess := rfl
@[simp] theorem finish_ctl (r : Result) : (finish r s).ctl = s.ctl := rfl
@[simp] theorem finish_timer (r : Result) : (finish r s).timer = s.timer := rfl
@[simp] theorem finish_port (r : Result) : (finish r s).port = s.port := rfl
@[simp] theorem finish_hist (r : Result) : (finish r s).hist = s.hist := rfl
@[simp] theorem finish_tx (r : Result) : (finish r s).tx = s.tx := rfl
@[simp] theorem finish_rx (r : Result) : (finish r s).rx = s.rx := rfl
@[simp] theorem finish_opens (r : Result) : (finish r s).opens = s.opens := rfl
@[simp] theorem finish_writes (r : Result) : (finish r s).writes = s.writes := rfl
@[simp] theorem finish_offer (r : Result) : (finish r s).offer = s.offer := rfl
@[simp] theorem finish_inputs (r : Result) : (finish r s).inputs = s.inputs := rfl
@[simp] theorem finish_replies (r : Result) : (finish r s).replies = s.replies ++ [r] := rfl
@[simp] theorem finish_draws (r : Result) : (finish r s).draws = s.draws := rfl

/-! ### refuse -/

@[simp] theorem refuse_op (r : Reason) : (refuse r s).op = .none := rfl
@[simp] theorem refuse_blk (r : Reason) : (refuse r s).blk = s.blk := rfl
@[simp] theorem refuse_data (r : Reason) : (refuse r s).data = s.data := rfl
@[simp] theorem refuse_status (r : Reason) : (refuse r s).status = s.status := rfl
@[simp] theorem refuse_statusV (r : Reason) : (refuse r s).statusV = s.statusV := rfl
@[simp] theorem refuse_result (r : Reason) : (refuse r s).result = .refused r := rfl
@[simp] theorem refuse_txbuf (r : Reason) : (refuse r s).txbuf = s.txbuf := rfl
@[simp] theorem refuse_txlen (r : Reason) : (refuse r s).txlen = s.txlen := rfl
@[simp] theorem refuse_rxbuf (r : Reason) : (refuse r s).rxbuf = s.rxbuf := rfl
@[simp] theorem refuse_rxlen (r : Reason) : (refuse r s).rxlen = s.rxlen := rfl
@[simp] theorem refuse_phase (r : Reason) : (refuse r s).phase = .idle := rfl
@[simp] theorem refuse_sess (r : Reason) : (refuse r s).sess = s.sess := rfl
@[simp] theorem refuse_ctl (r : Reason) : (refuse r s).ctl = s.ctl := rfl
@[simp] theorem refuse_timer (r : Reason) : (refuse r s).timer = s.timer := rfl
@[simp] theorem refuse_port (r : Reason) : (refuse r s).port = s.port := rfl
@[simp] theorem refuse_hist (r : Reason) : (refuse r s).hist = s.hist := rfl
@[simp] theorem refuse_tx (r : Reason) : (refuse r s).tx = s.tx := rfl
@[simp] theorem refuse_rx (r : Reason) : (refuse r s).rx = s.rx := rfl
@[simp] theorem refuse_opens (r : Reason) : (refuse r s).opens = s.opens := rfl
@[simp] theorem refuse_writes (r : Reason) : (refuse r s).writes = s.writes := rfl
@[simp] theorem refuse_offer (r : Reason) : (refuse r s).offer = s.offer := rfl
@[simp] theorem refuse_inputs (r : Reason) : (refuse r s).inputs = s.inputs := rfl
@[simp] theorem refuse_replies (r : Reason) : (refuse r s).replies = s.replies ++ [.refused r] := rfl
@[simp] theorem refuse_draws (r : Reason) : (refuse r s).draws = s.draws := rfl

/-! ### refuseBusy -/

@[simp] theorem refuseBusy_op : (refuseBusy s).op = s.op := rfl
@[simp] theorem refuseBusy_blk : (refuseBusy s).blk = s.blk := rfl
@[simp] theorem refuseBusy_data : (refuseBusy s).data = s.data := rfl
@[simp] theorem refuseBusy_status : (refuseBusy s).status = s.status := rfl
@[simp] theorem refuseBusy_statusV : (refuseBusy s).statusV = s.statusV := rfl
@[simp] theorem refuseBusy_result : (refuseBusy s).result = s.result := rfl
@[simp] theorem refuseBusy_txbuf : (refuseBusy s).txbuf = s.txbuf := rfl
@[simp] theorem refuseBusy_txlen : (refuseBusy s).txlen = s.txlen := rfl
@[simp] theorem refuseBusy_rxbuf : (refuseBusy s).rxbuf = s.rxbuf := rfl
@[simp] theorem refuseBusy_rxlen : (refuseBusy s).rxlen = s.rxlen := rfl
@[simp] theorem refuseBusy_phase : (refuseBusy s).phase = s.phase := rfl
@[simp] theorem refuseBusy_sess : (refuseBusy s).sess = s.sess := rfl
@[simp] theorem refuseBusy_ctl : (refuseBusy s).ctl = s.ctl := rfl
@[simp] theorem refuseBusy_timer : (refuseBusy s).timer = s.timer := rfl
@[simp] theorem refuseBusy_port : (refuseBusy s).port = s.port := rfl
@[simp] theorem refuseBusy_hist : (refuseBusy s).hist = s.hist := rfl
@[simp] theorem refuseBusy_tx : (refuseBusy s).tx = s.tx := rfl
@[simp] theorem refuseBusy_rx : (refuseBusy s).rx = s.rx := rfl
@[simp] theorem refuseBusy_opens : (refuseBusy s).opens = s.opens := rfl
@[simp] theorem refuseBusy_writes : (refuseBusy s).writes = s.writes := rfl
@[simp] theorem refuseBusy_offer : (refuseBusy s).offer = s.offer := rfl
@[simp] theorem refuseBusy_inputs : (refuseBusy s).inputs = s.inputs := rfl
@[simp] theorem refuseBusy_replies : (refuseBusy s).replies = s.replies ++ [.refused .busy] := rfl
@[simp] theorem refuseBusy_draws : (refuseBusy s).draws = s.draws := rfl

/-! ### setCtl -/

@[simp] theorem setCtl_op (b : Bool) : (setCtl b s).op = s.op := rfl
@[simp] theorem setCtl_blk (b : Bool) : (setCtl b s).blk = s.blk := rfl
@[simp] theorem setCtl_data (b : Bool) : (setCtl b s).data = s.data := rfl
@[simp] theorem setCtl_status (b : Bool) : (setCtl b s).status = s.status := rfl
@[simp] theorem setCtl_statusV (b : Bool) : (setCtl b s).statusV = s.statusV := rfl
@[simp] theorem setCtl_result (b : Bool) : (setCtl b s).result = s.result := rfl
@[simp] theorem setCtl_txbuf (b : Bool) : (setCtl b s).txbuf = s.txbuf := rfl
@[simp] theorem setCtl_txlen (b : Bool) : (setCtl b s).txlen = s.txlen := rfl
@[simp] theorem setCtl_rxbuf (b : Bool) : (setCtl b s).rxbuf = s.rxbuf := rfl
@[simp] theorem setCtl_rxlen (b : Bool) : (setCtl b s).rxlen = s.rxlen := rfl
@[simp] theorem setCtl_phase (b : Bool) : (setCtl b s).phase = s.phase := rfl
@[simp] theorem setCtl_sess (b : Bool) : (setCtl b s).sess = s.sess := rfl
@[simp] theorem setCtl_ctl (b : Bool) : (setCtl b s).ctl = b := rfl
@[simp] theorem setCtl_timer (b : Bool) : (setCtl b s).timer = s.timer := rfl
@[simp] theorem setCtl_port (b : Bool) : (setCtl b s).port = s.port := rfl
@[simp] theorem setCtl_hist (b : Bool) : (setCtl b s).hist = s.hist ++ [.ctl b] := rfl
@[simp] theorem setCtl_tx (b : Bool) : (setCtl b s).tx = s.tx := rfl
@[simp] theorem setCtl_rx (b : Bool) : (setCtl b s).rx = s.rx := rfl
@[simp] theorem setCtl_opens (b : Bool) : (setCtl b s).opens = s.opens := rfl
@[simp] theorem setCtl_writes (b : Bool) : (setCtl b s).writes = s.writes := rfl
@[simp] theorem setCtl_offer (b : Bool) : (setCtl b s).offer = s.offer := rfl
@[simp] theorem setCtl_inputs (b : Bool) : (setCtl b s).inputs = s.inputs := rfl
@[simp] theorem setCtl_replies (b : Bool) : (setCtl b s).replies = s.replies := rfl
@[simp] theorem setCtl_draws (b : Bool) : (setCtl b s).draws = s.draws := rfl

/-! ### delay -/

@[simp] theorem delay_op (ms : Nat) : (delay ms s).op = s.op := rfl
@[simp] theorem delay_blk (ms : Nat) : (delay ms s).blk = s.blk := rfl
@[simp] theorem delay_data (ms : Nat) : (delay ms s).data = s.data := rfl
@[simp] theorem delay_status (ms : Nat) : (delay ms s).status = s.status := rfl
@[simp] theorem delay_statusV (ms : Nat) : (delay ms s).statusV = s.statusV := rfl
@[simp] theorem delay_result (ms : Nat) : (delay ms s).result = s.result := rfl
@[simp] theorem delay_txbuf (ms : Nat) : (delay ms s).txbuf = s.txbuf := rfl
@[simp] theorem delay_txlen (ms : Nat) : (delay ms s).txlen = s.txlen := rfl
@[simp] theorem delay_rxbuf (ms : Nat) : (delay ms s).rxbuf = s.rxbuf := rfl
@[simp] theorem delay_rxlen (ms : Nat) : (delay ms s).rxlen = s.rxlen := rfl
@[simp] theorem delay_phase (ms : Nat) : (delay ms s).phase = s.phase := rfl
@[simp] theorem delay_sess (ms : Nat) : (delay ms s).sess = s.sess := rfl
@[simp] theorem delay_ctl (ms : Nat) : (delay ms s).ctl = s.ctl := rfl
@[simp] theorem delay_timer (ms : Nat) : (delay ms s).timer = 0 := rfl
@[simp] theorem delay_port (ms : Nat) : (delay ms s).port = s.port := rfl
@[simp] theorem delay_hist (ms : Nat) : (delay ms s).hist = s.hist ++ [.delay ms] := rfl
@[simp] theorem delay_tx (ms : Nat) : (delay ms s).tx = s.tx := rfl
@[simp] theorem delay_rx (ms : Nat) : (delay ms s).rx = s.rx := rfl
@[simp] theorem delay_opens (ms : Nat) : (delay ms s).opens = s.opens := rfl
@[simp] theorem delay_writes (ms : Nat) : (delay ms s).writes = s.writes := rfl
@[simp] theorem delay_offer (ms : Nat) : (delay ms s).offer = s.offer := rfl
@[simp] theorem delay_inputs (ms : Nat) : (delay ms s).inputs = s.inputs := rfl
@[simp] theorem delay_replies (ms : Nat) : (delay ms s).replies = s.replies := rfl
@[simp] theorem delay_draws (ms : Nat) : (delay ms s).draws = s.draws := rfl

/-! ### endRead -/

@[simp] theorem endRead_op (n : Nat) (r : List Byte) : (endRead n r s).op = s.op := rfl
@[simp] theorem endRead_blk (n : Nat) (r : List Byte) : (endRead n r s).blk = s.blk := rfl
@[simp] theorem endRead_data (n : Nat) (r : List Byte) : (endRead n r s).data = s.data := rfl
@[simp] theorem endRead_status (n : Nat) (r : List Byte) : (endRead n r s).status = s.status := rfl
@[simp] theorem endRead_statusV (n : Nat) (r : List Byte) : (endRead n r s).statusV = s.statusV := rfl
@[simp] theorem endRead_result (n : Nat) (r : List Byte) : (endRead n r s).result = s.result := rfl
@[simp] theorem endRead_txbuf (n : Nat) (r : List Byte) : (endRead n r s).txbuf = s.txbuf := rfl
@[simp] theorem endRead_txlen (n : Nat) (r : List Byte) : (endRead n r s).txlen = s.txlen := rfl
@[simp] theorem endRead_rxbuf (n : Nat) (r : List Byte) : (endRead n r s).rxbuf = s.rxbuf := rfl
@[simp] theorem endRead_rxlen (n : Nat) (r : List Byte) : (endRead n r s).rxlen = s.rxlen := rfl
@[simp] theorem endRead_phase (n : Nat) (r : List Byte) : (endRead n r s).phase = s.phase := rfl
@[simp] theorem endRead_sess (n : Nat) (r : List Byte) : (endRead n r s).sess = s.sess := rfl
@[simp] theorem endRead_ctl (n : Nat) (r : List Byte) : (endRead n r s).ctl = s.ctl := rfl
@[simp] theorem endRead_timer (n : Nat) (r : List Byte) : (endRead n r s).timer = if r.length < n then 0 else min Config.readTimeout (Config.freeTimeLeft s.draws) := rfl
@[simp] theorem endRead_port (n : Nat) (r : List Byte) : (endRead n r s).port = s.port := rfl
@[simp] theorem endRead_hist (n : Nat) (r : List Byte) : (endRead n r s).hist = s.hist ++ [.rx n r] := rfl
@[simp] theorem endRead_tx (n : Nat) (r : List Byte) : (endRead n r s).tx = s.tx := rfl
@[simp] theorem endRead_rx (n : Nat) (r : List Byte) : (endRead n r s).rx = s.rx := rfl
@[simp] theorem endRead_opens (n : Nat) (r : List Byte) : (endRead n r s).opens = s.opens := rfl
@[simp] theorem endRead_writes (n : Nat) (r : List Byte) : (endRead n r s).writes = s.writes := rfl
@[simp] theorem endRead_offer (n : Nat) (r : List Byte) : (endRead n r s).offer = s.offer := rfl
@[simp] theorem endRead_inputs (n : Nat) (r : List Byte) : (endRead n r s).inputs = s.inputs := rfl
@[simp] theorem endRead_replies (n : Nat) (r : List Byte) : (endRead n r s).replies = s.replies := rfl
@[simp] theorem endRead_draws (n : Nat) (r : List Byte) : (endRead n r s).draws = s.draws + 1 := rfl

/-! ### encodeStep -/

@[simp] theorem encodeStep_op (f : List Byte) (next : Phase) : (encodeStep f next s).op = s.op := rfl
@[simp] theorem encodeStep_blk (f : List Byte) (next : Phase) : (encodeStep f next s).blk = s.blk := rfl
@[simp] theorem encodeStep_data (f : List Byte) (next : Phase) : (encodeStep f next s).data = s.data := rfl
@[simp] theorem encodeStep_status (f : List Byte) (next : Phase) : (encodeStep f next s).status = s.status := rfl
@[simp] theorem encodeStep_statusV (f : List Byte) (next : Phase) : (encodeStep f next s).statusV = false := rfl
@[simp] theorem encodeStep_result (f : List Byte) (next : Phase) : (encodeStep f next s).result = s.result := rfl
@[simp] theorem encodeStep_txbuf (f : List Byte) (next : Phase) : (encodeStep f next s).txbuf = overlay s.txbuf 0 f := rfl
@[simp] theorem encodeStep_txlen (f : List Byte) (next : Phase) : (encodeStep f next s).txlen = f.length := rfl
@[simp] theorem encodeStep_rxbuf (f : List Byte) (next : Phase) : (encodeStep f next s).rxbuf = s.rxbuf := rfl
@[simp] theorem encodeStep_rxlen (f : List Byte) (next : Phase) : (encodeStep f next s).rxlen = s.rxlen := rfl
@[simp] theorem encodeStep_phase (f : List Byte) (next : Phase) : (encodeStep f next s).phase = next := rfl
@[simp] theorem encodeStep_sess (f : List Byte) (next : Phase) : (encodeStep f next s).sess = s.sess := rfl
@[simp] theorem encodeStep_ctl (f : List Byte) (next : Phase) : (encodeStep f next s).ctl = s.ctl := rfl
@[simp] theorem encodeStep_timer (f : List Byte) (next : Phase) : (encodeStep f next s).timer = s.timer := rfl
@[simp] theorem encodeStep_port (f : List Byte) (next : Phase) : (encodeStep f next s).port = s.port := rfl
@[simp] theorem encodeStep_hist (f : List Byte) (next : Phase) : (encodeStep f next s).hist = s.hist := rfl
@[simp] theorem encodeStep_tx (f : List Byte) (next : Phase) : (encodeStep f next s).tx = s.tx := rfl
@[simp] theorem encodeStep_rx (f : List Byte) (next : Phase) : (encodeStep f next s).rx = s.rx := rfl
@[simp] theorem encodeStep_opens (f : List Byte) (next : Phase) : (encodeStep f next s).opens = s.opens := rfl
@[simp] theorem encodeStep_writes (f : List Byte) (next : Phase) : (encodeStep f next s).writes = s.writes := rfl
@[simp] theorem encodeStep_offer (f : List Byte) (next : Phase) : (encodeStep f next s).offer = s.offer := rfl
@[simp] theorem encodeStep_inputs (f : List Byte) (next : Phase) : (encodeStep f next s).inputs = s.inputs := rfl
@[simp] theorem encodeStep_replies (f : List Byte) (next : Phase) : (encodeStep f next s).replies = s.replies := rfl
@[simp] theorem encodeStep_draws (f : List Byte) (next : Phase) : (encodeStep f next s).draws = s.draws := rfl

/-! ### startCommand -/

@[simp] theorem startCommand_op (op : Op) : (startCommand op s).op = op := rfl
@[simp] theorem startCommand_blk (op : Op) : (startCommand op s).blk = s.blk := rfl
@[simp] theorem startCommand_data (op : Op) : (startCommand op s).data = s.data := rfl
@[simp] theorem startCommand_status (op : Op) : (startCommand op s).status = s.status := rfl
@[simp] theorem startCommand_statusV (op : Op) : (startCommand op s).statusV = false := rfl
@[simp] theorem startCommand_result (op : Op) : (startCommand op s).result = s.result := rfl
@[simp] theorem startCommand_txbuf (op : Op) : (startCommand op s).txbuf = s.txbuf := rfl
@[simp] theorem startCommand_txlen (op : Op) : (startCommand op s).txlen = s.txlen := rfl
@[simp] theorem startCommand_rxbuf (op : Op) : (startCommand op s).rxbuf = s.rxbuf := rfl
@[simp] theorem startCommand_rxlen (op : Op) : (startCommand op s).rxlen = s.rxlen := rfl
@[simp] theorem startCommand_phase (op : Op) : (startCommand op s).phase = .cEnc := rfl
@[simp] theorem startCommand_sess (op : Op) : (startCommand op s).sess = s.sess := rfl
@[simp] theorem startCommand_ctl (op : Op) : (startCommand op s).ctl = s.ctl := rfl
@[simp] theorem startCommand_timer (op : Op) : (startCommand op s).timer = s.timer := rfl
@[simp] theorem startCommand_port (op : Op) : (startCommand op s).port = s.port := rfl
@[simp] theorem startCommand_hist (op : Op) : (startCommand op s).hist = s.hist := rfl
@[simp] theorem startCommand_tx (op : Op) : (startCommand op s).tx = s.tx := rfl
@[simp] theorem startCommand_rx (op : Op) : (startCommand op s).rx = s.rx := rfl
@[simp] theorem startCommand_opens (op : Op) : (startCommand op s).opens = s.opens := rfl
@[simp] theorem startCommand_writes (op : Op) : (startCommand op s).writes = s.writes := rfl
@[simp] theorem startCommand_offer (op : Op) : (startCommand op s).offer = s.offer := rfl
@[simp] theorem startCommand_inputs (op : Op) : (startCommand op s).inputs = s.inputs := rfl
@[simp] theorem startCommand_replies (op : Op) : (startCommand op s).replies = s.replies := rfl
@[simp] theorem startCommand_draws (op : Op) : (startCommand op s).draws = s.draws := rfl

/-! ### raiseFailure (R221) -/

@[simp] theorem raiseFailure_op (f : Failure) (x : Option Exchange) : (raiseFailure f x s).op = .none := by
  unfold raiseFailure; split <;> rfl
@[simp] theorem raiseFailure_blk (f : Failure) (x : Option Exchange) : (raiseFailure f x s).blk = s.blk := by
  unfold raiseFailure; split <;> rfl
@[simp] theorem raiseFailure_data (f : Failure) (x : Option Exchange) : (raiseFailure f x s).data = s.data := by
  unfold raiseFailure; split <;> rfl
@[simp] theorem raiseFailure_status (f : Failure) (x : Option Exchange) : (raiseFailure f x s).status = s.status := by
  unfold raiseFailure; split <;> rfl
@[simp] theorem raiseFailure_statusV (f : Failure) (x : Option Exchange) : (raiseFailure f x s).statusV = s.statusV := by
  unfold raiseFailure; split <;> rfl
@[simp] theorem raiseFailure_result (f : Failure) (x : Option Exchange) : (raiseFailure f x s).result = .fail f s.op x := by
  unfold raiseFailure; split <;> rfl
@[simp] theorem raiseFailure_txbuf (f : Failure) (x : Option Exchange) : (raiseFailure f x s).txbuf = s.txbuf := by
  unfold raiseFailure; split <;> rfl
@[simp] theorem raiseFailure_txlen (f : Failure) (x : Option Exchange) : (raiseFailure f x s).txlen = s.txlen := by
  unfold raiseFailure; split <;> rfl
@[simp] theorem raiseFailure_rxbuf (f : Failure) (x : Option Exchange) : (raiseFailure f x s).rxbuf = s.rxbuf := by
  unfold raiseFailure; split <;> rfl
@[simp] theorem raiseFailure_rxlen (f : Failure) (x : Option Exchange) : (raiseFailure f x s).rxlen = s.rxlen := by
  unfold raiseFailure; split <;> rfl
@[simp] theorem raiseFailure_phase (f : Failure) (x : Option Exchange) : (raiseFailure f x s).phase = .idle := by
  unfold raiseFailure; split <;> rfl
@[simp] theorem raiseFailure_sess (f : Failure) (x : Option Exchange) :
    (raiseFailure f x s).sess = if s.op = .openPort then s.sess else .failed := by
  unfold raiseFailure; split <;> rfl
@[simp] theorem raiseFailure_ctl (f : Failure) (x : Option Exchange) : (raiseFailure f x s).ctl = s.ctl := by
  unfold raiseFailure; split <;> rfl
@[simp] theorem raiseFailure_timer (f : Failure) (x : Option Exchange) : (raiseFailure f x s).timer = s.timer := by
  unfold raiseFailure; split <;> rfl
@[simp] theorem raiseFailure_port (f : Failure) (x : Option Exchange) : (raiseFailure f x s).port = s.port := by
  unfold raiseFailure; split <;> rfl
@[simp] theorem raiseFailure_hist (f : Failure) (x : Option Exchange) : (raiseFailure f x s).hist = s.hist := by
  unfold raiseFailure; split <;> rfl
@[simp] theorem raiseFailure_tx (f : Failure) (x : Option Exchange) : (raiseFailure f x s).tx = s.tx := by
  unfold raiseFailure; split <;> rfl
@[simp] theorem raiseFailure_rx (f : Failure) (x : Option Exchange) : (raiseFailure f x s).rx = s.rx := by
  unfold raiseFailure; split <;> rfl
@[simp] theorem raiseFailure_opens (f : Failure) (x : Option Exchange) : (raiseFailure f x s).opens = s.opens := by
  unfold raiseFailure; split <;> rfl
@[simp] theorem raiseFailure_writes (f : Failure) (x : Option Exchange) : (raiseFailure f x s).writes = s.writes := by
  unfold raiseFailure; split <;> rfl
@[simp] theorem raiseFailure_offer (f : Failure) (x : Option Exchange) : (raiseFailure f x s).offer = s.offer := by
  unfold raiseFailure; split <;> rfl
@[simp] theorem raiseFailure_inputs (f : Failure) (x : Option Exchange) : (raiseFailure f x s).inputs = s.inputs := by
  unfold raiseFailure; split <;> rfl
@[simp] theorem raiseFailure_replies (f : Failure) (x : Option Exchange) : (raiseFailure f x s).replies = s.replies ++ [.fail f s.op x] := by
  unfold raiseFailure; split <;> rfl
@[simp] theorem raiseFailure_draws (f : Failure) (x : Option Exchange) : (raiseFailure f x s).draws = s.draws := by
  unfold raiseFailure; split <;> rfl

/-! ### hreset (R250) -/

@[simp] theorem hreset_op (sent : Nat) : (hreset sent s).op = State.reset.op := rfl
@[simp] theorem hreset_blk (sent : Nat) : (hreset sent s).blk = State.reset.blk := rfl
@[simp] theorem hreset_data (sent : Nat) : (hreset sent s).data = State.reset.data := rfl
@[simp] theorem hreset_status (sent : Nat) : (hreset sent s).status = State.reset.status := rfl
@[simp] theorem hreset_statusV (sent : Nat) : (hreset sent s).statusV = State.reset.statusV := rfl
@[simp] theorem hreset_result (sent : Nat) : (hreset sent s).result = State.reset.result := rfl
@[simp] theorem hreset_txbuf (sent : Nat) : (hreset sent s).txbuf = State.reset.txbuf := rfl
@[simp] theorem hreset_txlen (sent : Nat) : (hreset sent s).txlen = State.reset.txlen := rfl
@[simp] theorem hreset_rxbuf (sent : Nat) : (hreset sent s).rxbuf = State.reset.rxbuf := rfl
@[simp] theorem hreset_rxlen (sent : Nat) : (hreset sent s).rxlen = State.reset.rxlen := rfl
@[simp] theorem hreset_phase (sent : Nat) : (hreset sent s).phase = State.reset.phase := rfl
@[simp] theorem hreset_sess (sent : Nat) : (hreset sent s).sess = State.reset.sess := rfl
@[simp] theorem hreset_ctl (sent : Nat) : (hreset sent s).ctl = State.reset.ctl := rfl
@[simp] theorem hreset_timer (sent : Nat) : (hreset sent s).timer = State.reset.timer := rfl
@[simp] theorem hreset_port (sent : Nat) : (hreset sent s).port = State.reset.port := rfl
@[simp] theorem hreset_hist (sent : Nat) : (hreset sent s).hist = State.reset.hist := rfl
@[simp] theorem hreset_tx (sent : Nat) : (hreset sent s).tx = s.tx ++ (bytesOnTheWay s).take sent := rfl
@[simp] theorem hreset_rx (sent : Nat) : (hreset sent s).rx = s.rx := rfl
@[simp] theorem hreset_opens (sent : Nat) : (hreset sent s).opens = s.opens := rfl
@[simp] theorem hreset_writes (sent : Nat) : (hreset sent s).writes = s.writes := rfl
@[simp] theorem hreset_offer (sent : Nat) : (hreset sent s).offer = s.offer := rfl
@[simp] theorem hreset_inputs (sent : Nat) : (hreset sent s).inputs = s.inputs := rfl
@[simp] theorem hreset_replies (sent : Nat) : (hreset sent s).replies = s.replies := rfl
@[simp] theorem hreset_draws (sent : Nat) : (hreset sent s).draws = s.draws := rfl

end Sys2Proof.Machine
end

