-- ==== Sys2Proof/Laws/Ops.lean ====
section
/-! SUPPORT. One lemma per shared operation that says everything it can do, for the proofs to cite. -/

namespace Sys2Proof.Machine

/-! ## Buffers -/

/-- Inside the buffer, an overlay replaces exactly its own stretch. -/
theorem overlayList_eq (buf : List Byte) (k : Nat) (v : List Byte) (h : k + v.length ≤ buf.length) :
    overlayList buf k v = buf.take k ++ v ++ buf.drop (k + v.length) := by
  fun_induction overlayList with
  | case1 buf k => simp
  | case2 k x xs => simp at h
  | case3 b bs x xs ih =>
    simp at h
    have e : 0 + (xs.length + 1) = xs.length + 1 := by omega
    rw [ih (by simpa using h)]
    simp [e]
  | case4 b bs k xs hx ih =>
    simp at h
    rw [ih (by omega)]
    have e : k + 1 + xs.length = k + xs.length + 1 := by omega
    simp [e]

theorem overlay_toList {n : Nat} (buf : Vector Byte n) (k : Nat) (v : List Byte) :
    (overlay buf k v).toList = overlayList buf.toList k v := by
  simp [overlay, Vector.toList]

theorem vector_getElem_toList {n : Nat} (v : Vector Byte n) (i : Nat) (h : i < n) :
    v[i] = byteAt v.toList i := by
  simp [byteAt, h]

/-- A buffer overlaid from its start begins with what was laid. -/
theorem overlay_take {n : Nat} (buf : Vector Byte n) (v : List Byte) (h : v.length ≤ n) :
    (overlay buf 0 v).toList.take v.length = v := by
  rw [overlay_toList, overlayList_eq _ _ _ (by simpa using h)]
  simp

/-- Laying `v` behind the first `k` bytes leaves those and adds `v`. -/
theorem overlay_take_add {n : Nat} (buf : Vector Byte n) (k : Nat) (v : List Byte) (h : k + v.length ≤ n) :
    (overlay buf k v).toList.take (k + v.length) = buf.toList.take k ++ v := by
  rw [overlay_toList, overlayList_eq _ _ _ (by simpa using h)]
  have h1 : (buf.toList.take k ++ v).length = k + v.length := by simp; omega
  rw [← h1, List.take_left']
  rfl

/-- Beyond the overlay the buffer is as before. -/
theorem overlay_get_beyond {n : Nat} (buf : Vector Byte n) (k : Nat) (v : List Byte) (i : Nat) (hi : i < n)
    (h : k + v.length ≤ i) : (overlay buf k v)[i] = buf[i] := by
  rw [vector_getElem_toList, vector_getElem_toList, overlay_toList, overlayList_eq _ _ _ (by simp; omega)]
  have h1 : (buf.toList.take k ++ v).length = k + v.length := by simp; omega
  unfold byteAt
  rw [List.getElem?_append_right (by omega), h1, List.getElem?_drop]
  congr 2
  omega

/-- Before the overlay the buffer is as before. -/
theorem overlay_get_before {n : Nat} (buf : Vector Byte n) (k : Nat) (v : List Byte) (i : Nat) (hi : i < n)
    (h : i < k) (hk : k + v.length ≤ n) : (overlay buf k v)[i] = buf[i] := by
  rw [vector_getElem_toList, vector_getElem_toList, overlay_toList, overlayList_eq _ _ _ (by simpa using hk)]
  unfold byteAt
  rw [List.append_assoc, List.getElem?_append_left (by simp; omega)]
  simp [h]

/-- In the overlay the buffer holds what was laid. -/
theorem overlay_get_inside {n : Nat} (buf : Vector Byte n) (k : Nat) (v : List Byte) (i : Nat)
    (h : i < v.length) (hk : k + v.length ≤ n) : (overlay buf k v)[k + i]'(by omega) = v[i] := by
  rw [vector_getElem_toList, overlay_toList, overlayList_eq _ _ _ (by simpa using hk)]
  unfold byteAt
  have h1 : (buf.toList.take k).length = k := by simp; omega
  rw [List.append_assoc, List.getElem?_append_right (by omega), h1, Nat.add_sub_cancel_left,
    List.getElem?_append_left h]
  simp [h]

/-- The frame just encoded is what the write step sends. -/
theorem txFrame_encodeStep (f : List Byte) (next : Phase) (s : State) (h : f.length ≤ 260) :
    (encodeStep f next s).txFrame = f := by
  simp only [State.txFrame, encodeStep_txbuf, encodeStep_txlen]
  exact overlay_take _ _ h

/-! ## The transport's primitives -/

/-- What an open is answered changes only the scripted answers and the count of draws. -/
theorem openAnswer_cases (s : State) : ∃ a o d, openAnswer s = (a, { s with opens := o, draws := d }) := by
  unfold openAnswer
  split
  · exact ⟨_, _, s.draws, rfl⟩
  · exact ⟨_, s.opens, _, rfl⟩

/-- A write is answered ok with all its bytes on the line, or with an error and a prefix of them (R53). -/
theorem memWrite_cases (v : List Byte) (s : State) :
    (∃ w d, memWrite v s =
      (true, { s with writes := w, draws := d, tx := s.tx ++ v, hist := s.hist ++ [.tx v true] })) ∨
    (∃ w d k, memWrite v s =
      (false, { s with writes := w, draws := d, tx := s.tx ++ v.take k, hist := s.hist ++ [.tx v false] })) := by
  obtain ⟨a, w, d, h⟩ : ∃ a w d, writeAnswer s = (a, { s with writes := w, draws := d }) := by
    unfold writeAnswer
    split
    · exact ⟨_, _, s.draws, rfl⟩
    · exact ⟨_, s.writes, _, rfl⟩
  cases a with
  | ok => exact .inl ⟨w, d, by simp [memWrite, h]⟩
  | error k => exact .inr ⟨w, d, k, by simp [memWrite, h]⟩

theorem memWrite_ok (v : List Byte) (s : State) (w : List WriteAnswer) (h : s.writes = .ok :: w) :
    memWrite v s = (true, { s with writes := w, tx := s.tx ++ v, hist := s.hist ++ [.tx v true] }) := by
  simp [memWrite, writeAnswer, h]

theorem memWrite_error (v : List Byte) (s : State) (w : List WriteAnswer) (k : Nat) (h : s.writes = .error k :: w) :
    memWrite v s = (false, { s with writes := w, tx := s.tx ++ v.take k, hist := s.hist ++ [.tx v false] }) := by
  simp [memWrite, writeAnswer, h]

/-- A read never takes more than it asks for. -/
theorem pull_length (n : Nat) (l : List RxItem) : (pull n l).1.length ≤ n := by
  fun_induction pull <;> simp_all

/-- Bytes that lie at the front of the stream are what a read of their number takes. -/
theorem pull_bytes (v : List Byte) (r : List RxItem) : pull v.length (v.map .byte ++ r) = (v, r, false) := by
  induction v with
  | nil => rfl
  | cons b v ih => simp [pull, ih]

/-- A read brings at most the bytes asked for, records them, and changes the receive stream, `TIMER` and the count of
draws (R54, R56). -/
theorem memRead_cases (n : Nat) (s : State) : ∃ r rx tm d, r.length ≤ n ∧
    memRead n s = (r, { s with rx := rx, timer := tm, draws := d, hist := s.hist ++ [.rx n r] }) := by
  have hp := pull_length n s.rx
  unfold memRead readAnswer
  split
  rename_i r s' heq
  split at heq
  · rename_i t rest h
    obtain ⟨rfl, rfl⟩ := Prod.mk.injEq .. ▸ heq
    exact ⟨t, rest, _, _, by simpa [h] using hp, rfl⟩
  · obtain ⟨rfl, rfl⟩ := Prod.mk.injEq .. ▸ heq
    exact ⟨_, _, _, _, by simp, rfl⟩

/-- A read whose bytes all lie at the front of the stream brings exactly them. -/
theorem memRead_bytes (v : List Byte) (r : List RxItem) (s : State) (h : s.rx = v.map .byte ++ r) :
    memRead v.length s = (v, endRead v.length v { s with rx := r }) := by
  simp [memRead, readAnswer, h, pull_bytes]

/-! ## Admission -/

theorem admitPlain_synced (op : Op) (s : State) (h : s.sess = .synced) : admitPlain op s = startCommand op s := by
  simp only [admitPlain, h]

theorem admitBlock_synced (op : Op) (n : Nat) (s : State) (h : s.sess = .synced) (hn : n ≤ Config.maxBlock) :
    admitBlock op n s = startCommand op { s with blk := BitVec.ofNat 14 n } := by
  unfold admitBlock
  split <;> simp_all

theorem payloadOf_toList (p : Vector Byte 256) : payloadOf p.toList = some p := by
  have h : p.toList.length = 256 := by simp
  simp only [payloadOf, h, dite_true]
  rfl

theorem admitPayload_synced (op : Op) (n : Nat) (p : Vector Byte 256) (s : State) (h : s.sess = .synced)
    (hn : n ≤ Config.maxBlock) :
    admitPayload op n p.toList s = startCommand op { s with blk := BitVec.ofNat 14 n, data := p } := by
  unfold admitPayload
  rw [payloadOf_toList]
  split <;> simp_all

/-- Whatever the request, admission refuses it, or starts the operation at its first phase (R29, R180). -/
theorem admit_cases (q : Request) (s : State) :
    (∃ r, admitRequest q s = refuse r s)
    ∨ (∃ p, q = .openPort p ∧ s.sess = .closed ∧ admitRequest q s = { s with op := .openPort, port := p, phase := .opening })
    ∨ (q = .resetAndSync ∧ s.sess = .opened ∧ admitRequest q s = { s with op := .resetAndSync, phase := .hs0 })
    ∨ (q = .close ∧ admitRequest q s = { s with op := .close, phase := .closing })
    ∨ (s.sess = .synced ∧ ∃ op b d, admitRequest q s =
        { s with op := op, blk := b, data := d, statusV := false, phase := .cEnc }
        ∧ ((op = .cmdReset ∧ q = .cmdReset ∧ b = s.blk ∧ d = s.data)
          ∨ (op = .chipErase ∧ q = .chipErase ∧ b = s.blk ∧ d = s.data)
          ∨ (∃ n, op = .blockErase ∧ q = .blockErase n ∧ n ≤ Config.maxBlock ∧ b = BitVec.ofNat 14 n ∧ d = s.data)
          ∨ (∃ n, op = .blankCheck ∧ q = .blankCheck n ∧ n ≤ Config.maxBlock ∧ b = BitVec.ofNat 14 n ∧ d = s.data)
          ∨ (∃ n v, op = .program ∧ q = .program n v ∧ n ≤ Config.maxBlock ∧ b = BitVec.ofNat 14 n
            ∧ payloadOf v = some d)
          ∨ (∃ n v, op = .verify ∧ q = .verify n v ∧ n ≤ Config.maxBlock ∧ b = BitVec.ofNat 14 n
            ∧ payloadOf v = some d))) := by
  have plain : ∀ op, (∃ r, admitPlain op s = refuse r s) ∨ (s.sess = .synced ∧ admitPlain op s = startCommand op s) := by
    intro op
    unfold admitPlain
    split <;> first | exact .inl ⟨_, rfl⟩ | exact .inr ⟨‹_›, rfl⟩
  have block : ∀ op n, (∃ r, admitBlock op n s = refuse r s) ∨ (s.sess = .synced ∧ n ≤ Config.maxBlock ∧
      admitBlock op n s = startCommand op { s with blk := BitVec.ofNat 14 n }) := by
    intro op n
    unfold admitBlock
    split
    · exact .inl ⟨_, rfl⟩
    · exact .inl ⟨_, rfl⟩
    · exact .inl ⟨_, rfl⟩
    · split
      · exact .inl ⟨_, rfl⟩
      · exact .inr ⟨‹_›, by omega, rfl⟩
  have payload : ∀ op n v, (∃ r, admitPayload op n v s = refuse r s) ∨ (s.sess = .synced ∧ n ≤ Config.maxBlock ∧
      ∃ d, payloadOf v = some d ∧
      admitPayload op n v s = startCommand op { s with blk := BitVec.ofNat 14 n, data := d }) := by
    intro op n v
    unfold admitPayload
    split
    · exact .inl ⟨_, rfl⟩
    · exact .inl ⟨_, rfl⟩
    · exact .inl ⟨_, rfl⟩
    · split
      · exact .inl ⟨_, rfl⟩
      · split
        · exact .inl ⟨_, rfl⟩
        · exact .inr ⟨‹_›, by omega, _, ‹_›, rfl⟩
  cases q with
  | openPort p =>
    have h : (∃ r, admitOpen p s = refuse r s)
        ∨ (s.sess = .closed ∧ admitOpen p s = { s with op := .openPort, port := p, phase := .opening }) := by
      unfold admitOpen
      split <;> first | exact .inl ⟨_, rfl⟩ | exact .inr ⟨‹_›, rfl⟩
    rcases h with h | ⟨h, e⟩
    · exact .inl h
    · exact .inr (.inl ⟨p, rfl, h, e⟩)
  | resetAndSync =>
    have h : (∃ r, admitResetAndSync s = refuse r s)
        ∨ (s.sess = .opened ∧ admitResetAndSync s = { s with op := .resetAndSync, phase := .hs0 }) := by
      unfold admitResetAndSync
      split <;> first | exact .inl ⟨_, rfl⟩ | exact .inr ⟨‹_›, rfl⟩
    rcases h with h | ⟨h, e⟩
    · exact .inl h
    · exact .inr (.inr (.inl ⟨rfl, h, e⟩))
  | close => exact .inr (.inr (.inr (.inl ⟨rfl, rfl⟩)))
  | cmdReset =>
    rcases plain .cmdReset with h | ⟨h, e⟩
    · exact .inl h
    · exact .inr (.inr (.inr (.inr ⟨h, _, _, _, e, .inl ⟨rfl, rfl, rfl, rfl⟩⟩)))
  | chipErase =>
    rcases plain .chipErase with h | ⟨h, e⟩
    · exact .inl h
    · exact .inr (.inr (.inr (.inr ⟨h, _, _, _, e, .inr (.inl ⟨rfl, rfl, rfl, rfl⟩)⟩)))
  | blockErase n =>
    rcases block .blockErase n with h | ⟨h, hn, e⟩
    · exact .inl h
    · exact .inr (.inr (.inr (.inr ⟨h, _, _, _, e, .inr (.inr (.inl ⟨n, rfl, rfl, hn, rfl, rfl⟩))⟩)))
  | blankCheck n =>
    rcases block .blankCheck n with h | ⟨h, hn, e⟩
    · exact .inl h
    · exact .inr (.inr (.inr (.inr ⟨h, _, _, _, e, .inr (.inr (.inr (.inl ⟨n, rfl, rfl, hn, rfl, rfl⟩)))⟩)))
  | program n v =>
    rcases payload .program n v with h | ⟨h, hn, d, hd, e⟩
    · exact .inl h
    · exact .inr (.inr (.inr (.inr ⟨h, _, _, _, e, .inr (.inr (.inr (.inr (.inl ⟨n, v, rfl, rfl, hn, rfl, hd⟩))))⟩)))
  | verify n v =>
    rcases payload .verify n v with h | ⟨h, hn, d, hd, e⟩
    · exact .inl h
    · exact .inr (.inr (.inr (.inr ⟨h, _, _, _, e, .inr (.inr (.inr (.inr (.inr ⟨n, v, rfl, rfl, hn, rfl, hd⟩))))⟩)))

/-! ## The sequencer -/

theorem ticks_idle (k : Nat) (s : State) (h : s.phase = .idle) : ticks k s = s := by
  induction k with
  | zero => rfl
  | succ k ih => simp [ticks, tick, h, ih]

theorem ticks_add (j k : Nat) (s : State) : ticks (j + k) s = ticks k (ticks j s) := by
  induction j generalizing s with
  | zero => simp [ticks]
  | succ j ih => rw [Nat.succ_add]; simp [ticks, ih]

/-- A write step goes on, or raises TransportError (R53, R211). -/
theorem writeStep_cases (next : Phase) (x : Exchange) (s : State) :
    (∃ w d, writeStep next x s =
      { s with writes := w, draws := d, tx := s.tx ++ s.txFrame, hist := s.hist ++ [.tx s.txFrame true],
               phase := next }) ∨
    (∃ w d k, writeStep next x s = raiseFailure .transportWrite (some x)
      { s with writes := w, draws := d, tx := s.tx ++ s.txFrame.take k, hist := s.hist ++ [.tx s.txFrame false] }) := by
  rcases memWrite_cases s.txFrame s with ⟨w, d, h⟩ | ⟨w, d, k, h⟩
  · exact .inl ⟨w, d, by simp [writeStep, h]⟩
  · exact .inr ⟨w, d, k, by simp [writeStep, h]⟩

/-- A sync step goes on, or raises TransportError. -/
theorem syncStep_cases (next : Phase) (s : State) :
    (∃ w d, syncStep next s =
      { s with writes := w, draws := d, tx := s.tx ++ [0x00#8], hist := s.hist ++ [.tx [0x00#8] true],
               phase := next }) ∨
    (∃ w d k, syncStep next s = raiseFailure .transportWrite none
      { s with writes := w, draws := d, tx := s.tx ++ [0x00#8].take k, hist := s.hist ++ [.tx [0x00#8] false] }) := by
  rcases memWrite_cases [Config.syncByte] s with ⟨w, d, h⟩ | ⟨w, d, k, h⟩
  · exact .inl ⟨w, d, by simp [syncStep, h]⟩
  · exact .inr ⟨w, d, k, by simp [syncStep, h]⟩

/-- The open phase ends with an open port, or raises TransportError (R160). -/
theorem openStep_cases (s : State) :
    (∃ o d, openStep s = finish .ok
      { s with opens := o, draws := d, hist := s.hist ++ [.opened s.port true], tx := [], sess := .opened }) ∨
    (∃ o d, openStep s = raiseFailure .transportOpen none
      { s with opens := o, draws := d, hist := s.hist ++ [.opened s.port false] }) := by
  obtain ⟨a, o, d, h⟩ := openAnswer_cases s
  cases a with
  | true => exact .inl ⟨o, d, by simp [openStep, h]⟩
  | false => exact .inr ⟨o, d, by simp [openStep, h]⟩

/-- A header step has two bytes and goes on, or raises FramingError (R134). -/
theorem headerStep_cases (next : Phase) (x : Exchange) (s : State) : ∃ h rx tm d, h.length ≤ 2 ∧
    headerStep next x s = takeHeader h next x
      { s with rx := rx, timer := tm, draws := d, hist := s.hist ++ [.rx 2 h] } := by
  obtain ⟨h, rx, tm, d, hl, e⟩ := memRead_cases Config.hdrRead s
  exact ⟨h, rx, tm, d, hl, by simp [headerStep, e]⟩

/-- A tail step has the bytes that LEN asks for and goes on, or raises FramingError (R135). -/
theorem tailStep_cases (next : Phase) (x : Exchange) (s : State) : ∃ t rx tm d, t.length ≤ tailCount s.rxbuf[1] ∧
    tailStep next x s = takeTail (tailCount s.rxbuf[1]) t next x
      { s with rx := rx, timer := tm, draws := d, hist := s.hist ++ [.rx (tailCount s.rxbuf[1]) t] } := by
  obtain ⟨t, rx, tm, d, hl, e⟩ := memRead_cases (tailCount s.rxbuf[1]) s
  exact ⟨t, rx, tm, d, hl, by simp [tailStep, e]⟩

/-- A header of two bytes: both stand in RXBUF, and the tail read follows. -/
theorem takeHeader_full (h : List Byte) (next : Phase) (x : Exchange) (s : State) (hl : h.length = 2) :
    takeHeader h next x s =
      { s with statusV := false, rxbuf := overlay s.rxbuf 0 h, rxlen := 2, phase := next } := by
  simp [takeHeader, hl]

/-- A header that is too short is a FramingError, with what was received in RXBUF (R134). -/
theorem takeHeader_short (h : List Byte) (next : Phase) (x : Exchange) (s : State) (hl : h.length < 2) :
    takeHeader h next x s = raiseFailure (.framing 2 h.length) (some x)
      { s with statusV := false, rxbuf := overlay s.rxbuf 0 h, rxlen := h.length } := by
  simp [takeHeader, hl]

/-- A whole tail: it stands in RXBUF from offset 2, its first byte is the status, and the check follows (R133). -/
theorem takeTail_full (n : Nat) (t : List Byte) (next : Phase) (x : Exchange) (s : State) (hl : t.length = n)
    (h1 : 0 < n) (h2 : n ≤ 257) :
    takeTail n t next x s =
      { s with
        rxbuf := overlay s.rxbuf 2 t, rxlen := 2 + n, status := byteAt t 0, statusV := true, phase := next } := by
  have h0 : 0 < t.length := by omega
  have e : (overlay s.rxbuf 2 t)[2] = byteAt t 0 := by
    have h := overlay_get_inside s.rxbuf 2 t 0 h0 (by simp; omega)
    simp only [byteAt, List.getElem?_eq_getElem h0, Option.getD_some]
    exact h
  simp [takeTail, hl, e]

/-- A tail that is too short is a FramingError, with what was received in RXBUF (R135). -/
theorem takeTail_short (n : Nat) (t : List Byte) (next : Phase) (x : Exchange) (s : State) (hl : t.length < n) :
    takeTail n t next x s = raiseFailure (.framing n t.length) (some x)
      { s with rxbuf := overlay s.rxbuf 2 t, rxlen := 2 + t.length } := by
  simp [takeTail, hl]

theorem tailCount_eq (len : Byte) : tailCount len = len.toNat + 2 := by simp [tailCount]

/-- LEN asks for at least two bytes and at most 257 (R62). -/
theorem tailCount_bounds (len : Byte) : 2 ≤ tailCount len ∧ tailCount len ≤ 257 := by
  have := len.isLt
  simp only [tailCount, Bool.false_and, Bool.false_eq_true, if_false, Config.tailExtra]
  omega

/-- A plain request's step, in terms of the phase it finds. -/
theorem callOp_idle (q : Request) (s : State) (h : s.phase = .idle) : callOp q s = ticks 10 (admitRequest q s) := by
  simp [callOp, post, h, longestOperation]

theorem callOp_busy (q : Request) (s : State) (h : s.phase ≠ .idle) : callOp q s = refuseBusy s := by
  simp [callOp, post, h]

end Sys2Proof.Machine
end

