-- ==== Sys2Proof/Laws/PerInstr.lean ====
section
/-! SUPPORT. Laws of every instruction, one lemma per constructor. -/

namespace Sys2Proof.Laws.Wire

/-- How many bytes an instruction has on the wire, by its position (R62): a sync byte 1, a command frame 5 or 11, a
data frame 260, a response 4 to 259, a status 1. -/
def Statement (i : Instr) : Prop :=
  i.wellFormed = true →
    match i.position with
    | .request => (encode i).length ∈ [1, 5, 11]
    | .data => (encode i).length = 260
    | .response => 4 ≤ (encode i).length ∧ (encode i).length ≤ 259
    | .status => (encode i).length = 1

theorem cmdReset : Statement .cmdReset := fun _ => by
  simp [Instr.position, encode, encodeCommand]
theorem chipErase : Statement .chipErase := fun _ => by
  simp [Instr.position, encode, encodeCommand]
theorem blockErase (n : Nat) : Statement (.blockErase n) := fun _ => by
  simp [Instr.position, encode, blockFrame, encodeCommand_length, addressBytes_length]
theorem blankCheck (n : Nat) : Statement (.blankCheck n) := fun _ => by
  simp [Instr.position, encode, blockFrame, encodeCommand_length, addressBytes_length]
theorem program (n : Nat) : Statement (.program n) := fun _ => by
  simp [Instr.position, encode, blockFrame, encodeCommand_length, addressBytes_length]
theorem verify (n : Nat) : Statement (.verify n) := fun _ => by
  simp [Instr.position, encode, blockFrame, encodeCommand_length, addressBytes_length]
theorem data (p : Payload) : Statement (.data p) := fun _ => encodeData_length p
theorem resp (stx len status : Byte) (rest : List Byte) : Statement (.resp stx len status rest) := fun h => by
  have hb := Machine.tailCount_bounds len
  have hl : rest.length + 1 = tailCount len := by simpa [Instr.wellFormed] using h
  simp only [Instr.position, encode, List.length_cons]
  omega
theorem sync : Statement .sync := fun _ => by
  simp [Instr.position, encode]
theorem status00 : Statement .status00 := fun _ => rfl
theorem status04 : Statement .status04 := fun _ => rfl
theorem status05 : Statement .status05 := fun _ => rfl
theorem status06 : Statement .status06 := fun _ => rfl
theorem status07 : Statement .status07 := fun _ => rfl
theorem status0F : Statement .status0F := fun _ => rfl
theorem status10 : Statement .status10 := fun _ => rfl
theorem status15 : Statement .status15 := fun _ => rfl
theorem status1A : Statement .status1A := fun _ => rfl
theorem status1B : Statement .status1B := fun _ => rfl
theorem status1C : Statement .status1C := fun _ => rfl
theorem status20 : Statement .status20 := fun _ => rfl
theorem statusFF : Statement .statusFF := fun _ => rfl

end Sys2Proof.Laws.Wire
end

