-- ==== Sys2Proof/Laws/Step.lean ====
section
/-! SUPPORT. What a step can do, said once: every step is one of a few moves. -/

namespace Sys2Proof.Machine

/-- A run goes through its first step. -/
theorem run_next (k : Nat) (s t : State) (h : step s = .next t) :
    Sys2Proof.core.run (k + 1) s = Sys2Proof.core.run k t := by
  have h' : Sys2Proof.core.step s = .next t := h
  simp only [Host.Core.run, h']

/-- The request that an instruction at the request position is, with the payload at the host port. -/
def requestOf (s : State) : Instr → Option Request
  | .sync => some .resetAndSync
  | .cmdReset => some .cmdReset
  | .chipErase => some .chipErase
  | .blockErase n => some (.blockErase n)
  | .blankCheck n => some (.blankCheck n)
  | .program n => some (.program n s.offer)
  | .verify n => some (.verify n s.offer)
  | .data _ | .resp _ _ _ _ | .status00 | .status04 | .status05 | .status06 | .status07 | .status0F | .status10
  | .status15 | .status1A | .status1B | .status1C | .status20 | .statusFF => none

/-- An instruction at the request position is its request with all its phases. -/
theorem exec_request (i : Instr) (s : State) (h : i.position = .request) :
    ∃ q, requestOf s i = some q ∧ exec i s = .next (callOp q s) := by
  cases i <;> simp only [Instr.position, reduceCtorEq] at h <;> exact ⟨_, rfl, rfl⟩

/-- Bytes that decode at a position are an instruction of that position. -/
theorem decodeRequest_position (f : List Byte) (i : Instr) (h : decode .request f = .ok i) :
    i.position = .request := by
  have block : ∀ (a : List Byte) (g : Nat → Instr), (∀ n, (g n).position = .request) →
      (blockOf a).map g = .ok i → i.position = .request := by
    intro a g hg e
    cases hb : blockOf a with
    | ok n => rw [hb] at e; cases e; exact hg n
    | error _ => rw [hb] at e; cases e
  change decodeRequest f = .ok i at h
  unfold decodeRequest at h
  split at h
  · cases h; rfl
  · split at h
    · rename_i c a _
      unfold commandOf at h
      split at h
      · split at h
        · cases h; rfl
        · split at h
          · cases h; rfl
          · cases h
      · split at h
        · exact block _ _ (fun _ => rfl) h
        · split at h
          · exact block _ _ (fun _ => rfl) h
          · split at h
            · exact block _ _ (fun _ => rfl) h
            · split at h
              · exact block _ _ (fun _ => rfl) h
              · cases h
    · cases h

/-- A call is its request with all its phases, whether the request has a row in the opcode table or not. -/
theorem runCall_eq (q : Request) (s : State) : runCall q s = .next (callOp q (supply q s)) := by
  cases q <;> rfl

/-- A read that gets all its bytes has them from the front of the stream. -/
theorem pull_full (n : Nat) (l : List RxItem) (h : (pull n l).1.length = n) :
    l = (pull n l).1.map .byte ++ (pull n l).2.1 := by
  fun_induction pull with
  | case1 l => simp
  | case2 n => simp at h
  | case3 n l => simp at h
  | case4 n b l t r o e ih => simp_all

/-- A response that is found whole lies at the front of the stream, as many bytes as its LEN says. -/
theorem peekResponse_some (l : List RxItem) (f : List Byte) (r : List RxItem) (h : peekResponse l = some (f, r)) :
    ∃ stx len b rest, f = stx :: len :: b :: rest ∧ rest.length = len.toNat + 1 ∧ l = f.map .byte ++ r := by
  unfold peekResponse at h
  simp only at h
  split at h
  · rename_i hl
    obtain ⟨h1, h2⟩ := hl
    obtain ⟨rfl, rfl⟩ := Prod.mk.injEq .. ▸ Option.some.inj h
    have e1 := pull_full _ _ h1
    have e2 := pull_full _ _ h2
    generalize (pull (tailCount (byteAt (pull Config.hdrRead l).1 1)) (pull Config.hdrRead l).2.1).1 = t at *
    match hh : (pull Config.hdrRead l).1, h1 with
    | [x, y], _ =>
      rw [hh] at h2 e1 e2
      rw [show tailCount (byteAt [x, y] 1) = y.toNat + 2 from tailCount_eq y] at h2
      match t, h2 with
      | b :: rest, h2 =>
        refine ⟨x, y, b, rest, rfl, by simpa using h2, ?_⟩
        rw [List.map_append, List.append_assoc]
        rw [← e2]
        exact e1
  · cases h

/-- What the wire item at a phase does: the next phase alone, the data frame, a whole response, or the check of the
status. -/
theorem runItem_cases (s : State) :
    runItem s = .next (tick s)
    ∨ (s.phase = .dEnc ∧ runItem s = exec (.data s.data) s)
    ∨ ((s.phase = .cRxh ∨ s.phase = .dRxh) ∧ ∃ stx len b rest r, rest.length = len.toNat + 1
      ∧ s.rx = (stx :: len :: b :: rest).map .byte ++ r
      ∧ runItem s = exec (.resp stx len b rest) { s with rx := r })
    ∨ ((s.phase = .cChk ∨ s.phase = .dChk) ∧ ∃ i, decode .status [s.status] = .ok i ∧ runItem s = exec i s) := by
  have rxh : ∀ (hp : s.phase = .cRxh ∨ s.phase = .dRxh), runItem s = .next (tick s)
      ∨ ∃ stx len b rest r, rest.length = len.toNat + 1 ∧ s.rx = (stx :: len :: b :: rest).map .byte ++ r
        ∧ runItem s = exec (.resp stx len b rest) { s with rx := r } := by
    intro hp
    have hf : fetchItem s = (peekResponse s.rx).map fun p => (p.1, { s with rx := p.2 }) := by
      rcases hp with hp | hp <;> simp only [fetchItem, hp]
    have hq : s.phase.position = .response := by rcases hp with hp | hp <;> rw [hp] <;> rfl
    cases hpk : peekResponse s.rx with
    | none => left; simp [runItem, hf, hpk]
    | some p =>
      obtain ⟨f, r⟩ := p
      obtain ⟨stx, len, b, rest, hfe, hr, hrx⟩ := peekResponse_some _ _ _ hpk
      subst hfe
      have hdec : decode .response (stx :: len :: b :: rest) = .ok (.resp stx len b rest) := by
        have := tailCount_eq len
        simp only [decode, decodeResponse]
        rw [if_pos (by omega)]
      exact .inr ⟨stx, len, b, rest, r, hr, hrx, by simp [runItem, hf, hpk, hq, hdec]⟩
  have chk : ∀ (hp : s.phase = .cChk ∨ s.phase = .dChk), runItem s = .next (tick s)
      ∨ ∃ i, decode .status [s.status] = .ok i ∧ runItem s = exec i s := by
    intro hp
    have hf : fetchItem s = some ([s.status], s) := by
      rcases hp with hp | hp <;> simp only [fetchItem, hp]
    have hq : s.phase.position = .status := by rcases hp with hp | hp <;> rw [hp] <;> rfl
    cases hd : decode .status [s.status] with
    | ok i => exact .inr ⟨i, rfl, by simp [runItem, hf, hq, hd]⟩
    | error e => left; simp [runItem, hf, hq, hd]
  have other : fetchItem s = none → runItem s = .next (tick s) := by
    intro h
    simp [runItem, h]
  obtain ⟨p, hp⟩ : ∃ p, s.phase = p := ⟨_, rfl⟩
  cases p with
  | dEnc =>
    have hf : fetchItem s = some (encodeData s.data, s) := by simp only [fetchItem, hp]
    cases hd : decode .data (encodeData s.data) with
    | error e => left; simp [runItem, hf, hp, Phase.position, hd]
    | ok i =>
      refine .inr (.inl ⟨hp, ?_⟩)
      have hi : i = .data s.data := by
        change decodeData (encodeData s.data) = .ok i at hd
        unfold decodeData at hd
        iterate 5 (split at hd; · cases hd)
        have ht : ((encodeData s.data).drop 2).take 256 = s.data.toList := by
          simp [encodeData]
        rw [ht, payloadOf_toList] at hd
        cases hd
        rfl
      subst hi
      simp [runItem, hf, hp, Phase.position, hd]
  | cRxh =>
    rcases rxh (.inl hp) with h | h
    · exact .inl h
    · exact .inr (.inr (.inl ⟨.inl hp, h⟩))
  | dRxh =>
    rcases rxh (.inr hp) with h | h
    · exact .inl h
    · exact .inr (.inr (.inl ⟨.inr hp, h⟩))
  | cChk =>
    rcases chk (.inl hp) with h | h
    · exact .inl h
    · exact .inr (.inr (.inr ⟨.inl hp, h⟩))
  | dChk =>
    rcases chk (.inr hp) with h | h
    · exact .inl h
    · exact .inr (.inr (.inr ⟨.inr hp, h⟩))
  | idle | opening | closing | hs0 | hs1 | hs2 | hs3 | hs4 | hs5 | hs6 | hs7 | hs8 | hs9 | cEnc | cTx | cRxt | dTx
  | dRxt => exact .inl (other (by simp only [fetchItem, hp]))

/-- Every step that answers a next state is one of six moves, on the state whose head input has been taken. -/
theorem step_cases (s t : State) (h : step s = .next t) : ∃ xs,
    t = tick { s with inputs := xs }
    ∨ runItem { s with inputs := xs } = .next t
    ∨ (∃ q, t = callOp q (supply q { s with inputs := xs }))
    ∨ (∃ q, t = callOp q { s with inputs := xs })
    ∨ (∃ q, t = post q (supply q { s with inputs := xs }))
    ∨ ∃ sent, t = hreset sent { s with inputs := xs } := by
  unfold step at h
  split at h
  · rename_i hi
    have : ({ s with inputs := [] } : State) = s := by cases s; simp_all
    exact ⟨[], .inl (by rw [this]; cases h; rfl)⟩
  · rename_i x xs hi
    refine ⟨xs, ?_⟩
    cases x with
    | quiet => cases h; exact .inl rfl
    | item => exact .inr (.inl h)
    | call q =>
      have e := (runCall_eq q { s with inputs := xs }).symm.trans h
      cases e
      exact .inr (.inr (.inl ⟨q, rfl⟩))
    | frame f =>
      change runFrame f { s with inputs := xs } = _ at h
      unfold runFrame at h
      split at h
      · rename_i i hd
        obtain ⟨q, -, e⟩ := exec_request i { s with inputs := xs } (decodeRequest_position f i hd)
        rw [e] at h
        cases h
        exact .inr (.inr (.inr (.inl ⟨q, rfl⟩)))
      · cases h
    | post q => cases h; exact .inr (.inr (.inr (.inr (.inl ⟨q, rfl⟩))))
    | hreset k => cases h; exact .inr (.inr (.inr (.inr (.inr ⟨k, rfl⟩))))

end Sys2Proof.Machine
end

