-- ==== Sys2Proof/Tests/Slice0.lean ====
section
/-! SUPPORT. The model's own tests, with expected values from spec/95_test_vectors.md and the rules named; and for every
statement with hypotheses a concrete case that meets them all. -/

namespace Sys2Proof.Tests

-- One theorem after the other: with many closed evaluations at once Lean runs out of threads.
set_option Elab.async false

open Sys2Proof Sys2Proof.Machine

/-! ## Helpers -/

/-- The next state of an outcome. -/
def nextOf : Host.Outcome State Fault Refusal → Option State
  | .next s => some s
  | .fault _ | .refused _ => none

/-- What a test looks at in an outcome's next state. -/
def seen {α : Type} (f : State → α) (o : Host.Outcome State Fault Refusal) : Option α := (nextOf o).map f

/-- An idle engine in a session. -/
def synced : State := { State.reset with sess := .synced, ctl := true, port := "P" }

/-- An idle engine with an open port. -/
def opened : State := { State.reset with sess := .opened, port := "P" }

/-- An engine in a session at a phase of an operation. -/
def standing (p : Phase) (op : Op) : State := { synced with phase := p, op := op }

/-- The illustrative response with a status (notation of the vectors' file). -/
def answer (status crc : Byte) : List RxItem :=
  [.byte 0x02, .byte 0x01, .byte status, .byte crc, .byte 0x03]

def ack : List RxItem := answer 0x06 0xF9
def nack : List RxItem := answer 0x15 0xEA

/-- `Z256`. -/
def z256 : Vector Byte 256 := zeros 256

/-- `RAMP`. -/
def ramp : Vector Byte 256 := Vector.ofFn fun i => BitVec.ofNat 8 i.val

/-! ## Ill-formed instructions are refused by the check -/

theorem test_block_erase_16384_ill_formed : (Instr.blockErase 16384).wellFormed = false := by decide
theorem test_blank_check_16384_ill_formed : (Instr.blankCheck 16384).wellFormed = false := by decide
theorem test_program_16384_ill_formed : (Instr.program 16384).wellFormed = false := by decide
theorem test_verify_16384_ill_formed : (Instr.verify 16384).wellFormed = false := by decide
theorem test_resp_shorter_than_len_ill_formed : (Instr.resp 0x02 0x01 0x06 [0xF9]).wellFormed = false := by decide
theorem test_verify_16383_well_formed : (Instr.verify 16383).wellFormed = true := by decide

/-! ## Words written out from the formats decode to their instructions (sections 2.3 to 2.6 of the vectors) -/

theorem test_decode_cmd_reset : decode .request [0x01, 0x01, 0x00, 0xFF, 0x03] = .ok .cmdReset := by decide
theorem test_decode_chip_erase : decode .request [0x01, 0x01, 0x20, 0xDF, 0x03] = .ok .chipErase := by decide
theorem test_decode_block_erase :
    decode .request [0x01, 0x07, 0x22, 0x03, 0xFC, 0x00, 0x03, 0xFF, 0xFF, 0xD7, 0x03] = .ok (.blockErase 255) := by
  decide
theorem test_decode_blank_check :
    decode .request [0x01, 0x07, 0x32, 0x04, 0x00, 0x00, 0x04, 0x03, 0xFF, 0xBD, 0x03] = .ok (.blankCheck 256) := by
  decide
theorem test_decode_program :
    decode .request [0x01, 0x07, 0x40, 0x00, 0x04, 0x00, 0x00, 0x07, 0xFF, 0xAF, 0x03] = .ok (.program 1) := by decide
theorem test_decode_verify :
    decode .request [0x01, 0x07, 0x13, 0xFF, 0xFC, 0x00, 0xFF, 0xFF, 0xFF, 0xEE, 0x03] = .ok (.verify 16383) := by
  decide
theorem test_decode_data :
    decode .data ([0x02, 0x00] ++ List.replicate 256 0x03 ++ [0x00, 0x03]) =
      .ok (.data (Vector.replicate 256 0x03)) := by decide +kernel
theorem test_decode_resp :
    decode .response [0x02, 0x02, 0x06, 0x06, 0xF2, 0x03] = .ok (.resp 0x02 0x02 0x06 [0x06, 0xF2, 0x03]) := by decide
theorem test_decode_sync : decode .request [0x00] = .ok .sync := by decide
theorem test_decode_status00 : decode .status [0x00] = .ok .status00 := by decide
theorem test_decode_status04 : decode .status [0x04] = .ok .status04 := by decide
theorem test_decode_status05 : decode .status [0x05] = .ok .status05 := by decide
theorem test_decode_status06 : decode .status [0x06] = .ok .status06 := by decide
theorem test_decode_status07 : decode .status [0x07] = .ok .status07 := by decide
theorem test_decode_status0F : decode .status [0x0F] = .ok .status0F := by decide
theorem test_decode_status10 : decode .status [0x10] = .ok .status10 := by decide
theorem test_decode_status15 : decode .status [0x15] = .ok .status15 := by decide
theorem test_decode_status1A : decode .status [0x1A] = .ok .status1A := by decide
theorem test_decode_status1B : decode .status [0x1B] = .ok .status1B := by decide
theorem test_decode_status1C : decode .status [0x1C] = .ok .status1C := by decide
theorem test_decode_status20 : decode .status [0x20] = .ok .status20 := by decide
theorem test_decode_statusFF : decode .status [0xFF] = .ok .statusFF := by decide

/-- Addresses that are no block's (R85): END of another block; a middle byte that is no multiple of 4. -/
theorem test_decode_refuses_wrong_addresses :
    decode .request [0x01, 0x07, 0x22, 0x00, 0x04, 0x00, 0x00, 0x0B, 0xFF, 0xC9, 0x03] = .error .badAddresses
      ∧ decode .request [0x01, 0x07, 0x22, 0x00, 0x05, 0x00, 0x00, 0x08, 0xFF, 0xCB, 0x03] = .error .badAddresses := by
  decide

/-- A table word of CMD_RESET and of BLOCK_ERASE, the latter with its CRC bits 0 (R101, log entry 12). -/
theorem test_table_words :
    decodeTableWord 40 0x03FF000101 = some .cmdReset
      ∧ decodeTableWord 88 0x0300FF0300000000220701 = some (.blockErase 0) := by decide

/-! ## The codec and the checksum (vectors K and section 2.4) -/

theorem test_crc_k3_k8 :
    crc [0x01, 0x01, 0xFF] 1 = 0x00 ∧ crc [0x01, 0x07, 0x13, 0xFF, 0xFC, 0x00, 0xFF, 0xFF, 0xFF] 7 = 0xEE := by decide
theorem test_data_frame_of_ramp : byteAt (encodeData ramp) 258 = 0x80 ∧ byteAt (encodeData ramp) 257 = 0xFF := by
  decide +kernel

/-! ## The commands (vectors E, programs P) -/

/-- E1. -/
theorem test_cmd_reset_ack :
    seen (fun t => (t.result, t.sess, t.status, t.hist))
        (exec .cmdReset { synced with writes := [.ok], rx := ack }) =
      some (.ok, .synced, 0x06,
        [.tx [0x01, 0x01, 0x00, 0xFF, 0x03] true, .rx 2 [0x02, 0x01], .rx 3 [0x06, 0xF9, 0x03]]) := by decide +kernel

/-- Program P5: a stale byte in front of the response. -/
theorem test_cmd_reset_stale_byte :
    seen (fun t => (t.result, t.sess, t.rxFrame))
        (exec .cmdReset { synced with writes := [.ok], rx := .byte 0x06 :: ack }) =
      some (.fail (.protocol 0x01 "unknown status") .cmdReset (some .command), .failed,
        [0x06, 0x02, 0x01, 0x06, 0xF9, 0x03]) := by decide +kernel

/-- Program P4, request 4: the status arrived, the response did not. -/
theorem test_chip_erase_short_tail :
    seen (fun t => (t.result, t.statusV, t.rxFrame))
        (exec .chipErase { synced with writes := [.ok], rx := [.byte 0x02, .byte 0x01, .byte 0x06, .silence] }) =
      some (.fail (.framing 3 1) .chipErase (some .command), false, [0x02, 0x01, 0x06]) := by decide +kernel

/-- E12: a response wrong in STX, CRC and ETX is a success. -/
theorem test_chip_erase_unchecked_response :
    seen (fun t => t.result)
        (exec .chipErase
          { synced with writes := [.ok], rx := [.byte 0xAA, .byte 0x01, .byte 0x06, .byte 0x00, .byte 0x00] }) =
      some .ok := by decide +kernel

/-- Program P1, request 4. -/
theorem test_block_erase_2 :
    seen (fun t => (t.result, t.tx, t.blk)) (exec (.blockErase 2) { synced with writes := [.ok], rx := ack }) =
      some (.ok, [0x01, 0x07, 0x22, 0x00, 0x08, 0x00, 0x00, 0x0B, 0xFF, 0xC5, 0x03], 2) := by decide +kernel

/-- A8. -/
theorem test_block_erase_16384 :
    seen (fun t => (t.result, t.hist, t.sess)) (exec (.blockErase 16384) synced) =
      some (.refused .blockOutOfRange, [], .synced) := by decide +kernel

/-- E6: no status makes a blank check fail. -/
theorem test_blank_check_busy :
    seen (fun t => (t.result, t.sess))
        (exec (.blankCheck 0) { synced with writes := [.ok], rx := answer 0xFF 0x00 }) =
      some (.statusReturned 0xFF, .synced) := by decide +kernel

/-- Program P2, request 4: no data frame after NACK. -/
theorem test_program_nack :
    seen (fun t => (t.result, t.sess, t.tx))
        (exec (.program 1) { synced with offer := z256.toList, writes := [.ok], rx := nack }) =
      some (.fail (.protocol 0x15 "NACK") .program (some .command), .failed,
        [0x01, 0x07, 0x40, 0x00, 0x04, 0x00, 0x00, 0x07, 0xFF, 0xAF, 0x03]) := by decide +kernel

/-- A10: the earlier check decides. -/
theorem test_program_check_order :
    seen (fun t => t.result) (exec (.program 16384) { synced with offer := List.replicate 255 0x00 }) =
      some (.refused .blockOutOfRange) := by decide +kernel

/-- E5. -/
theorem test_verify_equal :
    seen (fun t => (t.result, reportText .verify t.result, t.tx.length))
        (exec (.verify 0) { synced with offer := z256.toList, writes := [.ok, .ok], rx := ack ++ ack }) =
      some (.ok, some "verified equal", 271) := by decide +kernel

/-- Program P7: the command phase's ACK does not survive the failed write; a prefix went out. -/
theorem test_verify_write_fails :
    seen (fun t => (t.result, t.statusV, t.tx.length))
        (exec (.verify 0) { synced with offer := z256.toList, writes := [.ok, .error 3], rx := ack }) =
      some (.fail .transportWrite .verify (some .data), false, 14) := by decide +kernel

/-! ## The frames of an exchange -/

/-- R91, R132: the ramp's frame. -/
theorem test_data_sends_ramp :
    seen (fun t => (t.phase, t.tx.length, byteAt t.tx 258, t.txlen))
        (exec (.data ramp) { standing .dEnc .program with writes := [.ok] }) = some (.dRxh, 260, 0x80, 260) := by
  decide +kernel

/-- X10: LEN 0 is taken literally. -/
theorem test_resp_len_0 :
    seen (fun t => (t.phase, t.status, t.statusV, t.rxFrame)) (exec (.resp 0x02 0x00 0x06 [0x03])
        (standing .cRxh .chipErase)) = some (.cChk, 0x06, true, [0x02, 0x00, 0x06, 0x03]) := by decide +kernel

/-- X1, in the data exchange. -/
theorem test_resp_data_exchange :
    seen (fun t => (t.phase, t.status, t.hist)) (exec (.resp 0x02 0x01 0x06 [0xF9, 0x03])
        (standing .dRxh .verify)) = some (.dChk, 0x06, [.rx 2 [0x02, 0x01], .rx 3 [0x06, 0xF9, 0x03]]) := by
  decide +kernel

/-- Program P9, request 2: the second sync byte cannot be written. -/
theorem test_sync_second_byte_fails :
    seen (fun t => (t.result, t.sess, t.ctl, t.hist.getLast?)) (exec .sync { opened with writes := [.ok, .error 0] }) =
      some (.fail .transportWrite .resetAndSync none, .failed, true, some (.tx [0x00] false)) := by decide +kernel

/-- A7. -/
theorem test_sync_twice : seen (fun t => t.result) (exec .sync synced) = some (.refused .alreadySynced) := by
  decide +kernel

/-! ## The status bytes (section 2.6) -/

/-- What a status makes of a chip erase's check. -/
def judged (i : Instr) : Option (Result × Sess) :=
  seen (fun t => (t.result, t.sess)) (exec i (standing .cChk .chipErase))

/-- A ProtocolError of a chip erase. -/
def rejected (b : Byte) (name : String) : Option (Result × Sess) :=
  some (.fail (.protocol b name) .chipErase (some .command), .failed)

theorem test_status00 : judged .status00 = rejected 0x00 "no data" := by decide +kernel
theorem test_status04 : judged .status04 = rejected 0x04 "command number error" := by decide +kernel
theorem test_status05 : judged .status05 = rejected 0x05 "parameter error" := by decide +kernel
theorem test_status06 : judged .status06 = some (.ok, .synced) := by decide +kernel
theorem test_status06_goes_on : seen (fun t => t.phase) (exec .status06 (standing .cChk .program)) = some .dEnc := by
  decide +kernel
theorem test_status07 : judged .status07 = rejected 0x07 "checksum error" := by decide +kernel
theorem test_status0F : judged .status0F = rejected 0x0F "verify error" := by decide +kernel
theorem test_status10 : judged .status10 = rejected 0x10 "protect error" := by decide +kernel
theorem test_status15 : judged .status15 = rejected 0x15 "NACK" := by decide +kernel
theorem test_status1A : judged .status1A = rejected 0x1A "MRG10 error" := by decide +kernel
theorem test_status1B : judged .status1B = rejected 0x1B "MRG11 error" := by decide +kernel
theorem test_status1C : judged .status1C = rejected 0x1C "write error" := by decide +kernel
theorem test_status20 : judged .status20 = rejected 0x20 "read error" := by decide +kernel
theorem test_statusFF : judged .statusFF = rejected 0xFF "busy" := by decide +kernel

/-! ## OPEN, CLOSE, the step -/

/-- Program P8, request 1. -/
theorem test_open_fails :
    seen (fun t => (t.result, t.sess, t.hist))
        (step { State.reset with opens := [false], inputs := [.call (.openPort "P")] }) =
      some (.fail .transportOpen .openPort none, .closed, [.opened "P" false]) := by decide +kernel

/-- A14. -/
theorem test_close_failed_session :
    seen (fun t => (t.result, t.sess, t.hist)) (step { synced with sess := .failed, inputs := [.call .close] }) =
      some (.ok, .closed, [.closed]) := by decide +kernel

/-- A16. -/
theorem test_busy :
    seen (fun t => (t.result, t.phase, t.replies)) (step { standing .cTx .chipErase with inputs := [.post .close] }) =
      some (.none, .cTx, [.refused .busy]) := by decide +kernel

/-- A table word placed after reset is run by the next step: Reset() is refused there for want of a session (A1). -/
theorem test_fetch_word_after_reset :
    seen (fun t => (t.result, t.sess)) (step (State.reset.withFetchWord 40 0x03FF000101)) =
      some (.refused .noSession, .closed) := by decide +kernel

/-- Bytes that are no request's wire item are refused by name. -/
theorem test_no_request :
    (step { synced with inputs := [.frame [0x01, 0x01, 0x21, 0xDE, 0x03]] } matches
      .refused (.notARequest (.noCommand 0x21#8))) = true := by decide +kernel

/-! ## Every statement's hypotheses can be met together

One theorem per statement that has hypotheses, with a case for each of its clauses, at the ends of the ranges. -/

theorem test_witness_ChecksumEquivalentForms :
    (1 ≤ 1 ∧ 1 ≤ 256 ∧ 1 + 2 ≤ [0x01#8, 0x01#8, 0x00#8].length)
      ∧ (1 ≤ 256 ∧ 256 ≤ 256 ∧ 256 + 2 ≤ (encodeData ramp).length) := by decide +kernel

theorem test_witness_ChecksumIgnoresOrderAndStart : [0x01#8, 0x02#8].Perm [0x02#8, 0x01#8] := by decide

/-- Blocks 0 and 16383 (section 2.2 of the vectors). -/
theorem test_witness_AddressBytesFromBlockIndex :
    0 ≤ 16383 ∧ addressBytes 0 = [0x00, 0x00, 0x00, 0x00, 0x03, 0xFF]
      ∧ 16383 ≤ 16383 ∧ addressBytes 16383 = [0xFF, 0xFC, 0x00, 0xFF, 0xFF, 0xFF] := by decide

theorem test_witness_EncodedFramesHaveLengthEndAndZeroSum :
    ([] : List Byte).length ≤ 6 ∧ (addressBytes 16383).length ≤ 6
      ∧ decode .response [0x02, 0x00, 0x06, 0x03] = .ok (.resp 0x02 0x00 0x06 [0x03]) := by decide

theorem test_witness_BlockFramesByteByByte : 0 ≤ 16383 ∧ 16383 ≤ 16383 := by decide

theorem test_witness_CommandFrameRoundTrips :
    (([] : List Byte).length = 0 ∨ ([] : List Byte).length = 6)
      ∧ ((addressBytes 16383).length = 0 ∨ (addressBytes 16383).length = 6) := by decide

theorem test_witness_DecodeInvertsEncode :
    (Instr.verify 16383).wellFormed = true ∧ (Instr.resp 0x02 0x00 0x06 [0x03]).wellFormed = true
      ∧ (Instr.resp 0x02 0xFF 0x06 (List.replicate 256 0x00)).wellFormed = true
      ∧ (Instr.data ramp).wellFormed = true := by decide +kernel

theorem test_witness_EncodeInvertsDecode :
    decode .request [0x01, 0x07, 0x22, 0x00, 0x08, 0x00, 0x00, 0x0B, 0xFF, 0xC5, 0x03] = .ok (.blockErase 2)
      ∧ decode .response [0x02, 0x01, 0x15, 0xEA, 0x03] = .ok (.resp 0x02 0x01 0x15 [0xEA, 0x03])
      ∧ decode .status [0xFF] = .ok .statusFF := by decide

theorem test_witness_StatusNamesDistinct :
    statusClass 0x00#8 ≠ .unknown ∧ statusClass 0xFF#8 ≠ .unknown := by decide

theorem test_witness_RefusalsChangeNothingElse :
    synced.phase = .idle ∧ (standing .cTx .chipErase).phase ≠ .idle := by decide

/-- A case for each branch, with the blocks and payload lengths where they meet. -/
theorem test_witness_CommandAdmissionOrder :
    seen (fun t => t.replies) (.next (post (.program 0 []) (standing .dTx .verify))) = some [.refused .busy]
      ∧ (post (.program 16384 []) opened).result = .refused .noSession
      ∧ (post (.verify 16384 []) { synced with sess := .failed }).result = .refused .sessionFailed
      ∧ (post (.verify 16384 (List.replicate 256 0x00)) synced).result = .refused .blockOutOfRange
      ∧ (post (.program 16383 (List.replicate 255 0x00)) synced).result = .refused (.badPayloadLength 255)
      ∧ (post (.program 16383 (List.replicate 257 0x00)) synced).result = .refused (.badPayloadLength 257)
      ∧ (post (.program 16383 (List.replicate 256 0x00)) synced).phase = .cEnc
      ∧ (post (.blankCheck 16384) synced).result = .refused .blockOutOfRange
      ∧ (post (.blockErase 16383) synced).phase = .cEnc ∧ (post .cmdReset synced).phase = .cEnc := by decide +kernel

theorem test_witness_ExchangePhaseTransitions :
    ((standing .cEnc .chipErase).PhaseFits ∧ (standing .cTx .cmdReset).PhaseFits
      ∧ (standing .cRxh .blockErase).PhaseFits ∧ (standing .cRxt .verify).PhaseFits)
    ∧ ((standing .dEnc .program).PhaseFits ∧ (standing .dTx .verify).PhaseFits ∧ (standing .dRxh .program).PhaseFits
      ∧ (standing .dRxt .verify).PhaseFits)
    ∧ (standing .cChk .blankCheck).PhaseFits
    ∧ { standing .cChk .chipErase with status := 0x06 }.PhaseFits
    ∧ { standing .cChk .program with status := 0x06 }.PhaseFits
    ∧ { standing .cChk .verify with status := 0x07 }.PhaseFits
    ∧ { standing .dChk .program with status := 0x06 }.PhaseFits
    ∧ { standing .dChk .verify with status := 0x05 }.PhaseFits :=
  ⟨⟨⟨rfl, rfl⟩, ⟨rfl, rfl⟩, ⟨rfl, rfl⟩, ⟨rfl, rfl⟩⟩, ⟨⟨rfl, rfl⟩, ⟨rfl, rfl⟩, ⟨rfl, rfl⟩, ⟨rfl, rfl⟩⟩, ⟨rfl, rfl⟩,
    ⟨rfl, rfl⟩, ⟨rfl, rfl⟩, ⟨rfl, rfl⟩, ⟨rfl, rfl⟩, ⟨rfl, rfl⟩⟩

theorem test_witness_ReadTakesTheFrontOfTheStream :
    ack = [0x02#8, 0x01#8].map .byte ++ [.byte 0x06, .byte 0xF9, .byte 0x03]
      ∧ [0x02#8].length < 2 ∧ [RxItem.byte 0x02, .silence, .byte 0x01] = [0x02#8].map RxItem.byte ++ RxItem.silence :: [.byte 0x01#8] := by
  decide

theorem test_witness_TimerShowsTheTimeLeft : (memRead 2 { synced with rx := [.byte 0x02, .silence] }).1.length < 2 := by
  decide

theorem test_witness_WriteAppendsAllOrAPrefix :
    (memWrite [0x00] { synced with writes := [.ok] }).1 = true
      ∧ (memWrite [0x00] { synced with writes := [.error 0] }).1 = false := by decide

theorem test_witness_EveryPrefixIsPossibleAfterAFailedWrite :
    [] <+: [0x00#8] ∧ [0x00#8] <+: [0x00#8] := by decide

theorem test_witness_OpenOperation :
    (State.reset.phase = .idle ∧ State.reset.sess = .closed ∧ { State.reset with opens := [true] }.opens = true :: []
      ∧ { State.reset with opens := [false] }.opens = false :: []) ∧ opened.phase = .idle ∧ opened.sess ≠ .closed := by
  decide

theorem test_witness_HandshakeCompletes :
    let s := { opened with writes := [.ok, .ok] }
    s.phase = .idle ∧ s.sess = .opened ∧ s.writes = .ok :: .ok :: [] := by decide

theorem test_witness_HandshakeFailuresAndRefusals :
    opened.phase = .idle ∧ opened.sess = .opened ∧ { opened with writes := [.error 1] }.writes = .error 1 :: []
      ∧ { opened with writes := [.ok, .error 0] }.writes = .ok :: .error 0 :: []
      ∧ (State.reset.phase = .idle ∧ State.reset.sess = .closed) ∧ (synced.phase = .idle ∧ synced.sess = .synced)
      ∧ { synced with sess := .failed }.phase = .idle ∧ { synced with sess := .failed }.sess = .failed := by decide

theorem test_witness_CloseOperation :
    (State.reset.phase = .idle ∧ State.reset.sess = .closed) ∧ synced.phase = .idle ∧ synced.sess ≠ .closed := by decide

/-- A session with one answer to a write and a response in the stream. -/
def answered (rx : List RxItem) : State := { synced with writes := [.ok], rx := rx }

theorem test_witness_PlainCommandsComplete :
    let s := answered ack
    s.phase = .idle ∧ s.sess = .synced ∧ s.writes = .ok :: []
      ∧ s.rx = (0x02#8 :: 0x01#8 :: 0x06#8 :: [0xF9#8, 0x03#8]).map .byte ++ []
      ∧ [0xF9#8, 0x03#8].length = (0x01#8).toNat + 1 := by decide

/-- The shortest response, LEN 0. -/
theorem test_witness_BlockEraseCompletes :
    let s := answered [.byte 0x02, .byte 0x00, .byte 0x06, .byte 0x03, .byte 0xAA]
    16383 ≤ 16383 ∧ s.phase = .idle ∧ s.sess = .synced ∧ s.writes = .ok :: []
      ∧ s.rx = (0x02#8 :: 0x00#8 :: 0x06#8 :: [0x03#8]).map .byte ++ [.byte 0xAA]
      ∧ [0x03#8].length = (0x00#8).toNat + 1 := by decide

/-- The longest response, LEN 255. -/
theorem test_witness_BlankCheckCompletes :
    let rest := List.replicate 256 0x00#8
    let s := answered ((0x02#8 :: 0xFF#8 :: 0x0F#8 :: rest).map .byte)
    0 ≤ 16383 ∧ s.phase = .idle ∧ s.sess = .synced ∧ s.writes = .ok :: []
      ∧ s.rx = (0x02#8 :: 0xFF#8 :: 0x0F#8 :: rest).map .byte ++ [] ∧ rest.length = (0xFF#8).toNat + 1 := by
  decide +kernel

theorem test_witness_TwoPhaseCommandsComplete :
    let s := { synced with offer := ramp.toList, writes := [.ok, .ok], rx := ack ++ answer 0x0F 0xF0 }
    3 ≤ 16383 ∧ s.offer = ramp.toList ∧ s.phase = .idle ∧ s.sess = .synced ∧ s.writes = .ok :: .ok :: []
      ∧ s.rx = (0x02#8 :: 0x01#8 :: 0x06#8 :: [0xF9#8, 0x03#8]).map .byte
        ++ ((0x02#8 :: 0x01#8 :: 0x0F#8 :: [0xF0#8, 0x03#8]).map .byte ++ [])
      ∧ [0xF9#8, 0x03#8].length = (0x01#8).toNat + 1 ∧ [0xF0#8, 0x03#8].length = (0x01#8).toNat + 1 := by decide +kernel

theorem test_witness_RejectedCommandSendsNoData :
    let s := { synced with offer := z256.toList, writes := [.ok], rx := nack }
    1 ≤ 16383 ∧ s.offer = z256.toList ∧ s.phase = .idle ∧ s.sess = .synced ∧ s.writes = .ok :: [] ∧ 0x15#8 ≠ 0x06#8
      ∧ s.rx = (0x02#8 :: 0x01#8 :: 0x15#8 :: [0xEA#8, 0x03#8]).map .byte ++ []
      ∧ [0xEA#8, 0x03#8].length = (0x01#8).toNat + 1 := by decide +kernel

theorem test_witness_DataFrameIsSent :
    let s := standing .dEnc .verify
    (s.phase = .dEnc ∧ { s with writes := [.ok] }.writes = .ok :: [])
      ∧ (s.op ≠ .openPort ∧ { s with writes := [.error 260] }.writes = .error 260 :: [])
      ∧ (standing .dTx .verify).phase ≠ .dEnc := by decide

theorem test_witness_ResponseIsDecoded :
    [0x03#8].length = (0x00#8).toNat + 1 ∧ (List.replicate 256 0x00#8).length = (0xFF#8).toNat + 1
      ∧ (standing .cRxh .chipErase).phase = .cRxh ∧ (standing .dRxh .verify).phase = .dRxh
      ∧ ((standing .cRxt .verify).phase ≠ .cRxh ∧ (standing .cRxt .verify).phase ≠ .dRxh) := by decide +kernel

theorem test_witness_StatusBytesAreJudged :
    (Instr.statusFF, 0xFF#8) ∈ [(Instr.status00, 0x00#8), (.statusFF, 0xFF#8)]
      ∧ ((standing .cChk .blankCheck).op ≠ .openPort ∧ (standing .cChk .blankCheck).phase = .cChk)
      ∧ ((standing .cChk .verify).op ≠ .openPort ∧ (standing .cChk .verify).phase = .cChk)
      ∧ ((standing .dChk .program).op ≠ .openPort ∧ (standing .dChk .program).phase = .dChk)
      ∧ (synced.op ≠ .openPort ∧ synced.phase ≠ .cChk ∧ synced.phase ≠ .dChk) := by decide

theorem test_witness_EveryRequestEndsInOneOutcome : synced.phase = .idle := by decide

/-- A refusal for every line of R219's table, and a failure. -/
theorem test_witness_FailuresByOperation :
    (callOp (.openPort "P") opened).replies = opened.replies ++ [.refused .alreadyOpen]
      ∧ (callOp .resetAndSync synced).replies = synced.replies ++ [.refused .alreadySynced]
      ∧ (callOp .close (standing .cTx .chipErase)).replies = [] ++ [.refused .busy]
      ∧ (callOp .cmdReset opened).replies = opened.replies ++ [.refused .noSession]
      ∧ (callOp (.blockErase 16384) synced).replies = synced.replies ++ [.refused .blockOutOfRange]
      ∧ (callOp (.program 16383 [0x00]) synced).replies = synced.replies ++ [.refused (.badPayloadLength 1)]
      ∧ State.reset.phase = .idle
      ∧ (callOp (.openPort "P") { State.reset with opens := [false] }).result = .fail .transportOpen .openPort none := by
  decide +kernel

/-- Each of the three kinds of failure. -/
theorem test_witness_WhatSurvivesAFailure :
    let s1 := { synced with writes := [.error 0] }
    let s2 := answered [.byte 0x02, .silence]
    let s3 := answered nack
    (s1.phase = .idle ∧ Instr.chipErase.position = .request ∧ Instr.chipErase ≠ .sync
      ∧ seen (fun t => t.result) (exec .chipErase s1) = some (.fail .transportWrite .chipErase (some .command)))
    ∧ (s2.phase = .idle
      ∧ seen (fun t => t.result) (exec .chipErase s2) = some (.fail (.framing 2 1) .chipErase (some .command)))
    ∧ s3.phase = .idle
      ∧ seen (fun t => t.result) (exec .chipErase s3) = some (.fail (.protocol 0x15 "NACK") .chipErase (some .command)) := by
  decide +kernel

theorem test_witness_RunningOperationIgnoresTheHost :
    let s := { standing .dEnc .program with inputs := [.post (.program 0 []), .quiet] }
    s.phase ≠ .idle ∧ s.inputs = .post (.program 0 []) :: [.quiet] := by decide

theorem test_witness_OperationsDoNotLoop :
    synced.phase = .idle ∧ (Request.blankCheck 0 = .cmdReset ∨ Request.blankCheck 0 = .chipErase
      ∨ Request.blankCheck 0 = .blockErase 0 ∨ Request.blankCheck 0 = .blankCheck 0) := by decide

theorem test_witness_CommandsKeepTheRest :
    ∃ t, exec .chipErase (answered ack) = .next t ∧ Instr.chipErase.position = .request ∧ Instr.chipErase ≠ .sync
      ∧ ∀ n, Instr.chipErase ≠ .program n ∧ Instr.chipErase ≠ .verify n :=
  ⟨_, rfl, rfl, by decide, fun _ => ⟨by simp, by simp⟩⟩

theorem test_witness_FailedSessionIsSilent :
    let s := { synced with sess := .failed }
    s.phase = .idle ∧ s.sess = .failed ∧ Request.cmdReset ≠ .close ∧ Request.openPort "P" ≠ .close := by decide

theorem test_witness_HresetFromAnyState :
    ((standing .cTx .chipErase).phase = .cTx ∨ (standing .cTx .chipErase).phase = .dTx)
      ∧ ({ opened with phase := .hs8 }.phase = .hs6 ∨ { opened with phase := .hs8 }.phase = .hs8)
      ∧ synced.phase ∉ [.cTx, .dTx, .hs6, .hs8] := by decide

theorem test_witness_StepRunsTheDecodedInstruction :
    synced.inputs = []
      ∧ { synced with inputs := [.quiet] }.inputs = .quiet :: []
      ∧ { State.reset with inputs := [.call (.openPort "P")] }.inputs = .call (.openPort "P") :: []
      ∧ { synced with inputs := [.post .close, .quiet] }.inputs = .post .close :: [.quiet]
      ∧ { synced with inputs := [.hreset 0] }.inputs = .hreset 0 :: []
      ∧ ({ synced with inputs := [.frame [0x01, 0x01, 0x20, 0xDF, 0x03]] }.inputs
          = .frame [0x01, 0x01, 0x20, 0xDF, 0x03] :: []
        ∧ decode .request [0x01, 0x01, 0x20, 0xDF, 0x03] = .ok .chipErase)
      ∧ ({ synced with inputs := [.frame []] }.inputs = .frame [] :: [] ∧ decode .request [] = .error .tooShort) := by
  decide

/-- The clauses about the wire item at the phase. -/
theorem test_witness_StepRunsTheDecodedInstruction_item :
    let item (p : Phase) (op : Op) (rx : List RxItem) (b : Byte) : State :=
      { standing p op with inputs := [.item], rx := rx, status := b }
    ((item .dEnc .program [] 0).inputs = .item :: [] ∧ (item .dEnc .program [] 0).phase = .dEnc)
      ∧ ((item .dRxh .verify ack 0).phase = .dRxh ∧ [0xF9#8, 0x03#8].length = (0x01#8).toNat + 1
        ∧ (item .dRxh .verify ack 0).rx = (0x02#8 :: 0x01#8 :: 0x06#8 :: [0xF9#8, 0x03#8]).map .byte ++ [])
      ∧ ((item .cRxh .verify [.silence] 0).phase = .cRxh
        ∧ ∀ (stx len b : Byte) (rest : List Byte) (r : List RxItem), rest.length = len.toNat + 1 →
          (item .cRxh .verify [.silence] 0).rx ≠ (stx :: len :: b :: rest).map .byte ++ r)
      ∧ ((item .dChk .verify [] 0x0F).phase = .dChk
        ∧ decode .status [(item .dChk .verify [] 0x0F).status] = .ok .status0F)
      ∧ ((item .cChk .verify [] 0x42).phase = .cChk
        ∧ decode .status [(item .cChk .verify [] 0x42).status] = .error (.unlistedStatus 0x42))
      ∧ (item .cTx .verify [] 0).phase ∉ [.dEnc, .cRxh, .dRxh, .cChk, .dChk] :=
  ⟨by decide, by decide, ⟨rfl, fun _ _ _ _ _ _ h => by simp at h⟩, by decide, by decide, by decide⟩

theorem test_witness_CallIsPostThenPhases : synced.phase = .idle := by decide

theorem test_witness_ItemIsItsPhases :
    (standing .dEnc .program).phase = .dEnc
      ∧ ((standing .cRxh .program).phase = .cRxh ∧ [0xF9#8, 0x03#8].length = (0x01#8).toNat + 1
        ∧ { standing .cRxh .program with rx := ack }.rx
          = (0x02#8 :: 0x01#8 :: 0x06#8 :: [0xF9#8, 0x03#8]).map .byte ++ [])
      ∧ (standing .cChk .program).phase = .cChk := by decide

/-- After a successful open. -/
def openedRun : State := { opened with hist := [.opened "P" true] }

/-- After open and handshake. -/
def syncedRun : State := { synced with hist := .opened "P" true :: handshake, tx := [0x00, 0x00] }

/-- Whatever the environment holds, these three states meet the invariant. -/
theorem inv_of_reset_run (o : List Bool) (w : List WriteAnswer) (x : List Input) :
    { State.reset with opens := o, writes := w, inputs := x }.Inv :=
  ⟨rfl, ⟨Nat.zero_le _, Nat.zero_le _⟩, (fun h => nomatch h), trivial, trivial, rfl, rfl⟩

theorem inv_of_opened_run (w : List WriteAnswer) (x : List Input) :
    { openedRun with writes := w, inputs := x }.Inv :=
  ⟨rfl, ⟨Nat.zero_le _, Nat.zero_le _⟩, (fun h => nomatch h), ⟨[], rfl⟩, trivial, rfl, rfl⟩

theorem inv_of_synced_run (w : List WriteAnswer) (x : List Input) :
    { syncedRun with writes := w, inputs := x }.Inv :=
  ⟨rfl, ⟨Nat.zero_le _, Nat.zero_le _⟩, (fun _ => rfl), ⟨[], [], rfl, rfl⟩, trivial, rfl, rfl⟩

/-- Each of the six transitions. -/
theorem test_witness_SessionTransitions :
    let at1 := { State.reset with opens := [true], writes := [], inputs := [.call (.openPort "P")] }
    let at2 := { openedRun with writes := [.ok, .ok], inputs := [.call .resetAndSync] }
    let at3 := { openedRun with writes := [.error 0], inputs := [.call .resetAndSync] }
    let at4 := { syncedRun with writes := [.error 0], inputs := [.call .chipErase] }
    let at5 := { syncedRun with writes := [], inputs := [.call .close] }
    let at6 := { syncedRun with writes := [], inputs := [.hreset 0] }
    (at1.Inv ∧ seen State.sess (step at1) = some .opened) ∧ (at2.Inv ∧ seen State.sess (step at2) = some .synced)
      ∧ (at3.Inv ∧ seen State.sess (step at3) = some .failed) ∧ (at4.Inv ∧ seen State.sess (step at4) = some .failed)
      ∧ (at5.Inv ∧ seen State.sess (step at5) = some .closed) ∧ at6.Inv ∧ seen State.sess (step at6) = some .closed :=
  ⟨⟨inv_of_reset_run _ _ _, by decide +kernel⟩, ⟨inv_of_opened_run _ _, by decide +kernel⟩,
    ⟨inv_of_opened_run _ _, by decide +kernel⟩, ⟨inv_of_synced_run _ _, by decide +kernel⟩,
    ⟨inv_of_synced_run _ _, by decide +kernel⟩, inv_of_synced_run _ _, by decide +kernel⟩

theorem test_witness_StepKeepsInvariant :
    ∃ t, { syncedRun with writes := [.ok], inputs := [.call .chipErase] }.Inv
      ∧ step { syncedRun with writes := [.ok], inputs := [.call .chipErase] } = .next t :=
  ⟨_, inv_of_synced_run _ _, rfl⟩

/-- Two responses that differ everywhere but in LEN and in the status. -/
theorem test_witness_OnlyLenAndStatusMatter :
    [0xF9#8, 0x03#8].length = (0x01#8).toNat + 1 ∧ [0x00#8, 0x00#8].length = (0x01#8).toNat + 1
      ∧ ∃ t t', exec (.resp 0x02 0x01 0x06 [0xF9, 0x03]) (standing .cRxh .chipErase) = .next t
        ∧ exec (.resp 0xAA 0x01 0x06 [0x00, 0x00]) (standing .cRxh .chipErase) = .next t' :=
  ⟨by decide, by decide, _, _, rfl, rfl⟩

theorem test_witness_OnlyLenAndStatusDecideACommand :
    [0xF9#8, 0x03#8].length = (0x01#8).toNat + 1 ∧ [0x00#8, 0x00#8].length = (0x01#8).toNat + 1
      ∧ ∃ t t', exec (.blankCheck 0)
          { synced with rx := (0x02#8 :: 0x01#8 :: 0x06#8 :: [0xF9#8, 0x03#8]).map .byte ++ [] } = .next t
        ∧ exec (.blankCheck 0)
          { synced with rx := (0xAA#8 :: 0x01#8 :: 0x06#8 :: [0x00#8, 0x00#8]).map .byte ++ [] } = .next t' :=
  ⟨by decide, by decide, _, _, rfl, rfl⟩

/-- A run from reset in which a data frame is sent: open, handshake and program are 17 events. -/
theorem test_witness_RunsSendNoUnacknowledgedData :
    seen (fun t => (t.result, t.hist.length))
        (Sys2Proof.core.run 3
          { State.reset with
            rx := ack ++ ack, opens := [true], writes := [.ok, .ok, .ok, .ok]
            inputs := [.call (.openPort "P"), .call .resetAndSync, .call (.program 1 z256.toList)] }) =
      some (.ok, 17) := by decide +kernel

end Sys2Proof.Tests
end

