-- ==== Sys2Proof/Proofs/Scope.lean ====
section
/-! 00_scope.md: a request ends in one of the outcomes of R10. Each phase of an operation either goes on to a phase
nearer to IDLE or ends the request with one answer, so ten phases end every request. -/

namespace Sys2Proof.Machine

/-! ## What one phase does for a request under way -/

/-- How many phases an operation has left at most, this one included (R29, R189). -/
def Phase.phasesLeft : Phase → Nat
  | .idle => 0
  | .opening | .closing | .hs9 | .dChk => 1
  | .hs8 | .dRxt => 2
  | .hs7 | .dRxh => 3
  | .hs6 | .dTx => 4
  | .hs5 | .dEnc => 5
  | .hs4 | .cChk => 6
  | .hs3 | .cRxt => 7
  | .hs2 | .cRxh => 8
  | .hs1 | .cTx => 9
  | .hs0 | .cEnc => 10

theorem phasesLeft_le (p : Phase) : p.phasesLeft ≤ longestOperation := by
  cases p <;> decide

/-- Whether an operation can go on from one phase to the other: never from CLOSING, and never to IDLE or away from
it. -/
def Phase.leadsTo (p next : Phase) : Bool :=
  p != .closing && next != .idle && next.phasesLeft < p.phasesLeft

theorem leadsTo_iff (p next : Phase) :
    p.leadsTo next = true ↔ p ≠ .closing ∧ next ≠ .idle ∧ next.phasesLeft < p.phasesLeft := by
  simp [Phase.leadsTo, and_assoc]

/-- The operation under way at `s` is still under way at `t`, unanswered, and its status, if it is about to be judged,
is valid. -/
structure State.GoesOn (s t : State) : Prop where
  leads : s.phase.leadsTo t.phase = true
  op : t.op = s.op
  replies : t.replies = s.replies
  checked : t.phase = .cChk → t.statusV = true

/-- With which result the operation under way at `s` can end: Ok, a failure of its own, which CLOSING never has, or, of
a blank check, the status of its exchange. -/
def State.CanEndWith (s t : State) : Prop :=
  t.result = .ok
    ∨ (s.phase ≠ .closing ∧ ∃ f x, t.result = .fail f s.op x)
    ∨ (s.phase = .cChk ∧ s.op = .blankCheck ∧ t.result = .statusReturned t.status ∧ t.statusV = s.statusV)

/-- The operation under way at `s` has ended at `t`, answered once. -/
structure State.Ends (s t : State) : Prop where
  phase : t.phase = .idle
  op : t.op = .none
  replies : t.replies = s.replies ++ [t.result]
  outcome : s.CanEndWith t

variable {s t : State}

theorem finish_ok_ends (hr : t.replies = s.replies) : s.Ends (finish .ok t) :=
  ⟨rfl, rfl, by simp [hr], .inl rfl⟩

theorem raiseFailure_ends (f : Failure) (x : Option Exchange) (hp : s.phase ≠ .closing) (ho : t.op = s.op)
    (hr : t.replies = s.replies) : s.Ends (raiseFailure f x t) :=
  ⟨by simp, by simp, by simp [hr], .inr (.inl ⟨hp, f, x, by simp [ho]⟩)⟩

theorem openStep_ends (hp : s.phase ≠ .closing) : s.Ends (openStep s) := by
  rcases openStep_cases s with ⟨o, d, e⟩ | ⟨o, d, e⟩ <;> rw [e]
  · exact finish_ok_ends rfl
  · exact raiseFailure_ends _ _ hp rfl rfl

theorem closeStep_ends (s : State) : s.Ends (closeStep s) := by
  unfold closeStep
  split <;> exact finish_ok_ends rfl

theorem syncStep_goesOn_or_ends (next : Phase) (hl : s.phase.leadsTo next = true) (hn : next ≠ .cChk) :
    s.GoesOn (syncStep next s) ∨ s.Ends (syncStep next s) := by
  rcases syncStep_cases next s with ⟨w, d, e⟩ | ⟨w, d, k, e⟩ <;> rw [e]
  · exact .inl ⟨hl, rfl, rfl, fun h => absurd h hn⟩
  · exact .inr (raiseFailure_ends _ _ ((leadsTo_iff _ _).mp hl).1 rfl rfl)

theorem writeStep_goesOn_or_ends (next : Phase) (x : Exchange) (hl : s.phase.leadsTo next = true)
    (hn : next ≠ .cChk) : s.GoesOn (writeStep next x s) ∨ s.Ends (writeStep next x s) := by
  rcases writeStep_cases next x s with ⟨w, d, e⟩ | ⟨w, d, k, e⟩ <;> rw [e]
  · exact .inl ⟨hl, rfl, rfl, fun h => absurd h hn⟩
  · exact .inr (raiseFailure_ends _ _ ((leadsTo_iff _ _).mp hl).1 rfl rfl)

theorem headerStep_goesOn_or_ends (next : Phase) (x : Exchange) (hl : s.phase.leadsTo next = true)
    (hn : next ≠ .cChk) : s.GoesOn (headerStep next x s) ∨ s.Ends (headerStep next x s) := by
  obtain ⟨h, rx, tm, d, hlen, e⟩ := headerStep_cases next x s
  rw [e]
  rcases Nat.lt_or_eq_of_le hlen with hlt | heq
  · rw [takeHeader_short _ _ _ _ hlt]
    exact .inr (raiseFailure_ends _ _ ((leadsTo_iff _ _).mp hl).1 rfl rfl)
  · rw [takeHeader_full _ _ _ _ heq]
    exact .inl ⟨hl, rfl, rfl, fun h => absurd h hn⟩

theorem tailStep_goesOn_or_ends (next : Phase) (x : Exchange) (hl : s.phase.leadsTo next = true) :
    s.GoesOn (tailStep next x s) ∨ s.Ends (tailStep next x s) := by
  obtain ⟨r, rx, tm, d, hlen, e⟩ := tailStep_cases next x s
  rw [e]
  have hb := tailCount_bounds s.rxbuf[1]
  rcases Nat.lt_or_eq_of_le hlen with hlt | heq
  · rw [takeTail_short _ _ _ _ _ hlt]
    exact .inr (raiseFailure_ends _ _ ((leadsTo_iff _ _).mp hl).1 rfl rfl)
  · rw [takeTail_full _ _ _ _ _ heq (by omega) hb.2]
    exact .inl ⟨hl, rfl, rfl, fun _ => rfl⟩

/-- The second status is judged: it ends the operation. -/
theorem judge_dChk_ends (b : Byte) (hp : s.phase = .dChk) : s.Ends (judge b s) := by
  unfold judge
  rw [if_pos hp]
  split
  · exact finish_ok_ends rfl
  · exact raiseFailure_ends _ _ (by simp [hp]) rfl rfl

/-- The first status is judged: only ACK in a two-phase command goes on, and only a blank check returns its status. -/
theorem judge_cChk_goesOn_or_ends (hp : s.phase = .cChk) :
    s.GoesOn (judge s.status s) ∨ s.Ends (judge s.status s) := by
  have hd : s.phase ≠ .dChk := by simp [hp]
  unfold judge
  rw [if_neg hd]
  split
  · exact .inr ⟨rfl, rfl, rfl, .inr (.inr ⟨hp, ‹_›, rfl, rfl⟩)⟩
  · split
    · split
      · exact .inl ⟨by rw [hp]; rfl, rfl, rfl, nofun⟩
      · exact .inr (finish_ok_ends rfl)
    · exact .inr (raiseFailure_ends _ _ (by simp [hp]) rfl rfl)

/-- Every phase but IDLE goes on to a phase nearer to IDLE, or ends the request (R28, R29, R189). -/
theorem tick_goesOn_or_ends (s : State) (h : s.phase ≠ .idle) : s.GoesOn (tick s) ∨ s.Ends (tick s) := by
  unfold tick
  cases hp : s.phase with
  | idle => exact absurd hp h
  | opening => exact .inr (openStep_ends (by simp [hp]))
  | hs6 | hs8 => exact syncStep_goesOn_or_ends _ (by rw [hp]; rfl) nofun
  | hs9 => exact .inr (finish_ok_ends rfl)
  | cTx | dTx => exact writeStep_goesOn_or_ends _ _ (by rw [hp]; rfl) nofun
  | cRxh | dRxh => exact headerStep_goesOn_or_ends _ _ (by rw [hp]; rfl) nofun
  | cRxt | dRxt => exact tailStep_goesOn_or_ends _ _ (by rw [hp]; rfl)
  | cChk => exact judge_cChk_goesOn_or_ends hp
  | dChk => exact .inr (judge_dChk_ends _ hp)
  | closing => exact .inr (closeStep_ends s)
  | hs0 | hs1 | hs2 | hs3 | hs4 | hs5 | hs7 | cEnc | dEnc => exact .inl ⟨by rw [hp]; rfl, rfl, rfl, nofun⟩

/-! ## A request from its admission to its end -/

/-- The operation that a request asks for (R80). -/
def Request.op : Request → Op
  | .openPort _ => .openPort
  | .resetAndSync => .resetAndSync
  | .cmdReset => .cmdReset
  | .chipErase => .chipErase
  | .blockErase _ => .blockErase
  | .blankCheck _ => .blankCheck
  | .program _ _ => .program
  | .verify _ _ => .verify
  | .close => .close

/-- The request `q` is under way: `rs` has been answered before it, and the operation is the one it asks for. -/
structure State.Serves (q : Request) (rs : List Result) (s : State) : Prop where
  busy : s.phase ≠ .idle
  op : s.op = q.op
  replies : s.replies = rs
  closing : q = .close → s.phase = .closing
  checked : s.phase = .cChk → s.statusV = true

/-- The request `q` has ended in one of the outcomes of R10, answered once after `rs`. -/
def State.AnsweredOnce (q : Request) (rs : List Result) (t : State) : Prop :=
  t.phase = .idle ∧ t.op = .none ∧ t.replies = rs ++ [t.result]
    ∧ (t.result = .ok
      ∨ (∃ r, t.result = .refused r)
      ∨ (∃ b n, q = .blankCheck n ∧ t.result = .statusReturned b ∧ t.status = b ∧ t.statusV = true)
      ∨ ∃ f op x, t.result = .fail f op x ∧ op ∈ [Op.openPort, .resetAndSync, .cmdReset, .chipErase, .blockErase,
          .blankCheck, .program, .verify])

variable {q : Request} {rs : List Result}

/-- Only CLOSE has no operation that can fail. -/
theorem op_canFail (h : q ≠ .close) : q.op ∈ [Op.openPort, .resetAndSync, .cmdReset, .chipErase, .blockErase,
    .blankCheck, .program, .verify] := by
  cases q <;> simp_all [Request.op]

theorem op_eq_blankCheck (h : q.op = .blankCheck) : ∃ n, q = .blankCheck n := by
  cases q <;> simp_all [Request.op]

theorem serves_of_goesOn (hs : s.Serves q rs) (hg : s.GoesOn t) : t.Serves q rs := by
  obtain ⟨hclosing, hbusy, -⟩ := (leadsTo_iff _ _).mp hg.leads
  exact ⟨hbusy, hg.op.trans hs.op, hg.replies.trans hs.replies, fun h => absurd (hs.closing h) hclosing, hg.checked⟩

theorem answeredOnce_of_ends (hs : s.Serves q rs) (he : s.Ends t) : t.AnsweredOnce q rs := by
  refine ⟨he.phase, he.op, hs.replies ▸ he.replies, ?_⟩
  rcases he.outcome with hok | ⟨hclosing, f, x, hfail⟩ | ⟨hp, hop, hstatus, hvalid⟩
  · exact .inl hok
  · rw [hs.op] at hfail
    exact .inr (.inr (.inr ⟨f, q.op, x, hfail, op_canFail fun h => hclosing (hs.closing h)⟩))
  · obtain ⟨n, hn⟩ := op_eq_blankCheck (hs.op.symm.trans hop)
    exact .inr (.inr (.inl ⟨_, n, hn, hstatus, rfl, hvalid.trans (hs.checked hp)⟩))

/-- As many phases as a request has left answer it. -/
theorem ticks_answeredOnce (k : Nat) (s : State) (hs : s.Serves q rs) (hk : s.phase.phasesLeft ≤ k) :
    (ticks k s).AnsweredOnce q rs := by
  induction k generalizing s with
  | zero =>
    have hidle : s.phase = .idle := by
      cases hp : s.phase <;> simp_all [Phase.phasesLeft]
    exact absurd hidle hs.busy
  | succ k ih =>
    rcases tick_goesOn_or_ends s hs.busy with hg | he
    · obtain ⟨-, -, hfewer⟩ := (leadsTo_iff _ _).mp hg.leads
      exact ih (tick s) (serves_of_goesOn hs hg) (by omega)
    · rw [ticks, ticks_idle k _ he.phase]
      exact answeredOnce_of_ends hs he

/-- An admitted request is under way (R180); a refused one has been answered (R224). -/
theorem admitRequest_refused_or_serves (q : Request) (s : State) :
    (∃ r, admitRequest q s = refuse r s) ∨ (admitRequest q s).Serves q s.replies := by
  rcases admit_cases q s with h | ⟨p, rfl, -, e⟩ | ⟨rfl, -, e⟩ | ⟨rfl, e⟩ | ⟨-, op, b, d, e, hq⟩
  · exact .inl h
  · exact .inr (e ▸ ⟨nofun, rfl, rfl, nofun, nofun⟩)
  · exact .inr (e ▸ ⟨nofun, rfl, rfl, nofun, nofun⟩)
  · exact .inr (e ▸ ⟨nofun, rfl, rfl, fun _ => rfl, nofun⟩)
  · have hop : op = q.op ∧ q ≠ .close := by
      rcases hq with ⟨rfl, rfl, -⟩ | ⟨rfl, rfl, -⟩ | ⟨n, rfl, rfl, -⟩ | ⟨n, rfl, rfl, -⟩ | ⟨n, v, rfl, rfl, -⟩
        | ⟨n, v, rfl, rfl, -⟩ <;> exact ⟨rfl, nofun⟩
    exact .inr (e ▸ ⟨nofun, hop.1, rfl, fun h => absurd h hop.2, nofun⟩)

theorem callOp_answeredOnce (q : Request) (s : State) (h : s.phase = .idle) :
    (callOp q s).AnsweredOnce q s.replies := by
  rw [callOp_idle q s h]
  rcases admitRequest_refused_or_serves q s with ⟨r, e⟩ | hs
  · rw [e, ticks_idle _ _ rfl]
    exact ⟨rfl, rfl, rfl, .inr (.inl ⟨r, rfl⟩)⟩
  · exact ticks_answeredOnce _ _ hs (phasesLeft_le _)

/-- Settles O34: an admitted request is under way until a phase answers it, and no operation has more than the ten
phases that a call runs. -/
theorem everyRequestEndsInOneOutcome : Obligations.EveryRequestEndsInOneOutcome :=
  fun q s h => callOp_answeredOnce q s h

end Sys2Proof.Machine
end

section
/-! 10_state.md: what a step runs, what the state is after reset, what TIMER shows, and what a command leaves as it
was. The phases of a command touch the exchange's registers only, so a command keeps everything else however it ends;
and no phase touches the requests still to come, so a request's phases run undisturbed. -/

namespace Sys2Proof.Machine

variable {s t u : State}

/-! ## The frame of a command -/

/-- The phases of a command (R189), and IDLE, which ends it. -/
def Phase.ofCommand : Phase → Bool
  | .idle | .cEnc | .cTx | .cRxh | .cRxt | .cChk | .dEnc | .dTx | .dRxh | .dRxt | .dChk => true
  | .opening | .hs0 | .hs1 | .hs2 | .hs3 | .hs4 | .hs5 | .hs6 | .hs7 | .hs8 | .hs9 | .closing => false

/-- What the phases of a command keep from `s` to `t`: the session's surroundings and the operands; the history and the
line only grow. -/
structure State.KeepsRest (s t : State) : Prop where
  session : s.KeepsSession t
  hist : s.hist <+: t.hist
  tx : s.tx <+: t.tx
  blk : t.blk = s.blk
  data : t.data = s.data

/-- The command under way goes on from `s` to `t`, or ends there, and keeps the rest. -/
structure State.CommandRuns (s t : State) : Prop extends s.KeepsRest t where
  phase : t.phase.ofCommand = true

theorem keepsRest_refl (s : State) : s.KeepsRest s :=
  ⟨⟨rfl, rfl, rfl, rfl, rfl⟩, List.prefix_rfl, List.prefix_rfl, rfl, rfl⟩

theorem State.KeepsRest.trans (h : s.KeepsRest t) (h' : t.KeepsRest u) : s.KeepsRest u := by
  obtain ⟨hctl, hport, hopens, hoffer, hinputs⟩ := h.session
  obtain ⟨hctl', hport', hopens', hoffer', hinputs'⟩ := h'.session
  exact ⟨⟨hctl'.trans hctl, hport'.trans hport, hopens'.trans hopens, hoffer'.trans hoffer, hinputs'.trans hinputs⟩,
    h.hist.trans h'.hist, h.tx.trans h'.tx, h'.blk.trans h.blk, h'.data.trans h.data⟩

theorem finish_commandRuns (r : Result) (h : s.KeepsRest t) : s.CommandRuns (finish r t) :=
  ⟨⟨h.session, h.hist, h.tx, h.blk, h.data⟩, rfl⟩

theorem raiseFailure_commandRuns (f : Failure) (x : Option Exchange) (h : s.KeepsRest t) :
    s.CommandRuns (raiseFailure f x t) := by
  obtain ⟨hsession, hhist, htx, hblk, hdata⟩ := h
  exact ⟨⟨by simpa [State.KeepsSession] using hsession, by simpa, by simpa, by simpa, by simpa⟩,
    by rw [raiseFailure_phase]; rfl⟩

theorem encodeStep_commandRuns (f : List Byte) (next : Phase) (hn : next.ofCommand = true) :
    s.CommandRuns (encodeStep f next s) :=
  ⟨⟨⟨rfl, rfl, rfl, rfl, rfl⟩, List.prefix_rfl, List.prefix_rfl, rfl, rfl⟩, hn⟩

theorem writeStep_commandRuns (next : Phase) (x : Exchange) (hn : next.ofCommand = true) :
    s.CommandRuns (writeStep next x s) := by
  rcases writeStep_cases next x s with ⟨w, d, e⟩ | ⟨w, d, k, e⟩ <;> rw [e]
  · exact ⟨⟨⟨rfl, rfl, rfl, rfl, rfl⟩, ⟨_, rfl⟩, ⟨_, rfl⟩, rfl, rfl⟩, hn⟩
  · exact raiseFailure_commandRuns _ _
      ⟨⟨rfl, rfl, rfl, rfl, rfl⟩, ⟨_, rfl⟩, ⟨_, rfl⟩, rfl, rfl⟩

theorem headerStep_commandRuns (next : Phase) (x : Exchange) (hn : next.ofCommand = true) :
    s.CommandRuns (headerStep next x s) := by
  obtain ⟨h, rx, tm, d, hlen, e⟩ := headerStep_cases next x s
  rw [e]
  rcases Nat.lt_or_eq_of_le hlen with hlt | heq
  · rw [takeHeader_short _ _ _ _ hlt]
    exact raiseFailure_commandRuns _ _
      ⟨⟨rfl, rfl, rfl, rfl, rfl⟩, ⟨_, rfl⟩, List.prefix_rfl, rfl, rfl⟩
  · rw [takeHeader_full _ _ _ _ heq]
    exact ⟨⟨⟨rfl, rfl, rfl, rfl, rfl⟩, ⟨_, rfl⟩, List.prefix_rfl, rfl, rfl⟩, hn⟩

theorem tailStep_commandRuns (next : Phase) (x : Exchange) (hn : next.ofCommand = true) :
    s.CommandRuns (tailStep next x s) := by
  obtain ⟨r, rx, tm, d, hlen, e⟩ := tailStep_cases next x s
  rw [e]
  have hb := tailCount_bounds s.rxbuf[1]
  rcases Nat.lt_or_eq_of_le hlen with hlt | heq
  · rw [takeTail_short _ _ _ _ _ hlt]
    exact raiseFailure_commandRuns _ _
      ⟨⟨rfl, rfl, rfl, rfl, rfl⟩, ⟨_, rfl⟩, List.prefix_rfl, rfl, rfl⟩
  · rw [takeTail_full _ _ _ _ _ heq (by omega) hb.2]
    exact ⟨⟨⟨rfl, rfl, rfl, rfl, rfl⟩, ⟨_, rfl⟩, List.prefix_rfl, rfl, rfl⟩, hn⟩

/-- A status that is judged ends the command, or the data phase follows. -/
theorem judge_commandRuns (b : Byte) (s : State) : s.CommandRuns (judge b s) := by
  have hfinish := fun r => finish_commandRuns r (keepsRest_refl s)
  have hfail := fun f x => raiseFailure_commandRuns f x (keepsRest_refl s)
  unfold judge
  split
  · split
    · exact hfinish _
    · exact hfail _ _
  · split
    · exact hfinish _
    · split
      · split
        · exact ⟨⟨⟨rfl, rfl, rfl, rfl, rfl⟩, List.prefix_rfl, List.prefix_rfl, rfl, rfl⟩, rfl⟩
        · exact hfinish _
      · exact hfail _ _

/-- Every phase of a command keeps the rest, and leads to a phase of the command or to IDLE. -/
theorem tick_commandRuns (s : State) (h : s.phase.ofCommand = true) : s.CommandRuns (tick s) := by
  unfold tick
  cases hp : s.phase with
  | idle => exact ⟨keepsRest_refl s, h⟩
  | cEnc | dEnc => exact encodeStep_commandRuns _ _ rfl
  | cTx | dTx => exact writeStep_commandRuns _ _ rfl
  | cRxh | dRxh => exact headerStep_commandRuns _ _ rfl
  | cRxt | dRxt => exact tailStep_commandRuns _ _ rfl
  | cChk | dChk => exact judge_commandRuns _ _
  | opening | hs0 | hs1 | hs2 | hs3 | hs4 | hs5 | hs6 | hs7 | hs8 | hs9 | closing =>
    simp [hp, Phase.ofCommand] at h

theorem ticks_keepsRest (k : Nat) (s : State) (h : s.phase.ofCommand = true) : s.KeepsRest (ticks k s) := by
  induction k generalizing s with
  | zero => exact keepsRest_refl s
  | succ k ih =>
    have hfirst := tick_commandRuns s h
    exact hfirst.toKeepsRest.trans (ih (tick s) hfirst.phase)

/-- A command request keeps everything but the exchange's registers and the operands it samples: BLK is sampled with a
block operand only, DATA with a payload only. -/
theorem callOp_command_keepsRest (q : Request) (s : State) (hq : q.op.isCommand = true) :
    ∃ b d, State.KeepsRest { s with blk := b, data := d } (callOp q s)
      ∧ (q = .cmdReset ∨ q = .chipErase → b = s.blk)
      ∧ ((∀ n v, q ≠ .program n v ∧ q ≠ .verify n v) → d = s.data) := by
  by_cases hidle : s.phase = .idle
  · rw [callOp_idle q s hidle]
    rcases admit_cases q s with ⟨r, e⟩ | ⟨p, rfl, -⟩ | ⟨rfl, -⟩ | ⟨rfl, -⟩ | ⟨-, op, b, d, e, hoperands⟩
    · rw [e, ticks_idle _ _ rfl]
      exact ⟨s.blk, s.data, (finish_commandRuns _ (keepsRest_refl s)).toKeepsRest, fun _ => rfl, fun _ => rfl⟩
    · cases hq
    · cases hq
    · cases hq
    · rw [e]
      have hruns := ticks_keepsRest 10 { s with op := op, blk := b, data := d, statusV := false, phase := .cEnc } rfl
      refine ⟨b, d, ⟨hruns.session, hruns.hist, hruns.tx, hruns.blk, hruns.data⟩, ?_⟩
      rcases hoperands with ⟨-, -, hb, hd⟩ | ⟨-, -, hb, hd⟩ | ⟨n, -, rfl, -, -, hd⟩ | ⟨n, -, rfl, -, -, hd⟩
        | ⟨n, v, -, rfl, -⟩ | ⟨n, v, -, rfl, -⟩
      · exact ⟨fun _ => hb, fun _ => hd⟩
      · exact ⟨fun _ => hb, fun _ => hd⟩
      · exact ⟨nofun, fun _ => hd⟩
      · exact ⟨nofun, fun _ => hd⟩
      · exact ⟨nofun, fun h => absurd rfl (h n v).1⟩
      · exact ⟨nofun, fun h => absurd rfl (h n v).2⟩
  · rw [callOp_busy q s hidle]
    exact ⟨s.blk, s.data, ⟨⟨rfl, rfl, rfl, rfl, rfl⟩, List.prefix_rfl, List.prefix_rfl, rfl, rfl⟩, fun _ => rfl,
      fun _ => rfl⟩

/-- Every request with a row but SYNC is one of the six commands (R80). -/
theorem requestOf_isCommand {i : Instr} {q : Request} (h : requestOf s i = some q) (hi : i ≠ .sync) :
    q.op.isCommand = true := by
  cases i with
  | sync => exact absurd rfl hi
  | cmdReset | chipErase | blockErase | blankCheck | program | verify => cases h; rfl
  | data | resp | status00 | status04 | status05 | status06 | status07 | status0F | status10 | status15 | status1A
  | status1B | status1C | status20 | statusFF => cases h

theorem requestOf_program {i : Instr} {n : Nat} {v : List Byte} (h : requestOf s i = some (.program n v)) :
    i = .program n := by
  cases i <;> cases h
  rfl

theorem requestOf_verify {i : Instr} {n : Nat} {v : List Byte} (h : requestOf s i = some (.verify n v)) :
    i = .verify n := by
  cases i <;> cases h
  rfl

/-- Settles O40: a command is admitted with the operands it has, and each of its phases, also the one that ends it,
keeps the rest. -/
theorem commandsKeepTheRest : Obligations.CommandsKeepTheRest := by
  intro i s t hexec hpos hsync
  obtain ⟨q, hq, e⟩ := exec_request i s hpos
  obtain rfl : callOp q s = t := Host.Outcome.next.inj (e.symm.trans hexec)
  obtain ⟨b, d, hkeeps, hblk, hdata⟩ := callOp_command_keepsRest q s (requestOf_isCommand hq hsync)
  refine ⟨hkeeps.session, hkeeps.hist, hkeeps.tx, fun hi => hkeeps.blk.trans (hblk ?plain),
    fun hi => hkeeps.data.trans (hdata fun n v => ?noPayload)⟩
  case plain => rcases hi with rfl | rfl <;> cases hq <;> simp
  case noPayload =>
    exact ⟨fun e => (hi n).1 (requestOf_program (e ▸ hq)), fun e => (hi n).2 (requestOf_verify (e ▸ hq))⟩

/-! ## Taking an input -/

theorem step_quiet (h : s.inputs = []) : step s = .next (tick s) := by
  simp only [step, h, runInput]

theorem step_input {x : Input} {xs : List Input} (h : s.inputs = x :: xs) :
    step s = runInput x { s with inputs := xs } := by
  simp only [step, h]

theorem step_call {q : Request} {xs : List Input} (h : s.inputs = .call q :: xs) :
    step s = .next (callOp q (supply q { s with inputs := xs })) :=
  (step_input h).trans (runCall_eq q _)

theorem step_post {q : Request} {xs : List Input} (h : s.inputs = .post q :: xs) :
    step s = .next (post q (supply q { s with inputs := xs })) :=
  step_input h

theorem step_item {xs : List Input} (h : s.inputs = .item :: xs) : step s = runItem { s with inputs := xs } :=
  step_input h

/-! ## A request phase by phase -/

theorem closeStep_inputs (s : State) : (closeStep s).inputs = s.inputs := by
  unfold closeStep
  split <;> rfl

/-- No phase takes a request: those still to come stay. -/
@[simp] theorem tick_inputs (s : State) : (tick s).inputs = s.inputs := by
  by_cases hc : s.phase.ofCommand = true
  · obtain ⟨-, -, -, -, hinputs⟩ := (tick_commandRuns s hc).session
    exact hinputs
  · unfold tick
    cases hp : s.phase with
    | opening => rcases openStep_cases s with ⟨o, d, e⟩ | ⟨o, d, e⟩ <;> simp [e]
    | hs6 => rcases syncStep_cases .hs7 s with ⟨w, d, e⟩ | ⟨w, d, k, e⟩ <;> simp [e]
    | hs8 => rcases syncStep_cases .hs9 s with ⟨w, d, e⟩ | ⟨w, d, k, e⟩ <;> simp [e]
    | hs0 | hs1 | hs2 | hs3 | hs4 | hs5 | hs7 | hs9 => rfl
    | closing => exact closeStep_inputs s
    | idle | cEnc | cTx | cRxh | cRxt | cChk | dEnc | dTx | dRxh | dRxt | dChk => exact absurd (hp ▸ rfl) hc

/-- Admission takes no request but the one it admits. -/
theorem post_inputs (q : Request) (s : State) : (post q s).inputs = s.inputs := by
  unfold post
  split
  · rcases admit_cases q s with ⟨r, e⟩ | ⟨p, -, -, e⟩ | ⟨-, -, e⟩ | ⟨-, e⟩ | ⟨-, op, b, d, e, -⟩ <;>
      exact e ▸ rfl
  · rfl

theorem supply_inputs (q : Request) (s : State) : (supply q s).inputs = s.inputs := by
  cases q <;> rfl

theorem supply_phase (q : Request) (s : State) : (supply q s).phase = s.phase := by
  cases q <;> rfl

theorem callOp_eq_ticks_post (q : Request) (s : State) (h : s.phase = .idle) : callOp q s = ticks 10 (post q s) :=
  if_pos h

/-- With nothing from outside, a run is as many phases. -/
theorem run_quiet (k : Nat) (s : State) (h : s.inputs = []) : Sys2Proof.core.run k s = .next (ticks k s) := by
  induction k generalizing s with
  | zero => rfl
  | succ k ih =>
    rw [run_next k s (tick s) (step_quiet h)]
    exact ih (tick s) (by simpa)

/-- Settles O44: a call's step is the admission and ten phases, and after the admission's own step nothing is left from
outside, so a run of ten steps is those phases. -/
theorem callIsPostThenPhases : Obligations.CallIsPostThenPhases := by
  intro q s hidle
  obtain ⟨u, hu⟩ : ∃ u, supply q { s with inputs := [] } = u := ⟨_, rfl⟩
  have hcall : step { s with inputs := [.call q] } = .next (callOp q u) := hu ▸ step_call rfl
  have hpost : step { s with inputs := [.post q] } = .next (post q u) := hu ▸ step_post rfl
  have hphase : u.phase = .idle := by rw [← hu, supply_phase, hidle]
  have hquiet : (post q u).inputs = [] := by rw [post_inputs, ← hu, supply_inputs]
  calc Sys2Proof.core.run 1 { s with inputs := [.call q] }
      = .next (callOp q u) := run_next 0 _ _ hcall
    _ = .next (ticks 10 (post q u)) := by rw [callOp_eq_ticks_post q u hphase]
    _ = Sys2Proof.core.run 10 (post q u) := (run_quiet 10 _ hquiet).symm
    _ = Sys2Proof.core.run 11 { s with inputs := [.post q] } := (run_next 10 _ _ hpost).symm

/-! ## The wire item at a phase -/

/-- The checksum looks at no byte behind the summed ones (R121). -/
theorem crc_append (buf tail : List Byte) (n : Nat) (h : n + 2 ≤ buf.length) : crc (buf ++ tail) n = crc buf n := by
  unfold crc
  rw [List.drop_append_of_le_length (by omega), List.take_append_of_le_length (by simp; omega)]

/-- The data frame that the engine builds decodes to its payload (R91, R132). -/
theorem decodeData_encodeData (p : Payload) : decodeData (encodeData p) = .ok (.data p) := by
  have hstart : byteAt (encodeData p) 0 = Config.stxData := rfl
  have hlen : byteAt (encodeData p) 1 = Config.lenData := rfl
  have hcount : (encodeData p).length = Config.dataLen + Config.frameExtra := encodeData_length p
  have hcrcAt : byteAt (encodeData p) (Config.dataLen + 2) = crc ([0x02#8, 0x00#8] ++ p.toList) 256 := by
    simp [encodeData, byteAt]
  have hcrc : crc (encodeData p) Config.dataLen = crc ([0x02#8, 0x00#8] ++ p.toList) 256 :=
    crc_append _ _ _ (by simp)
  have hend : byteAt (encodeData p) (Config.dataLen + 3) = Config.etx := by
    simp [encodeData, byteAt]
  have hpayload : ((encodeData p).drop 2).take Config.dataLen = p.toList := by
    simp [encodeData]
  unfold decodeData
  rw [if_neg (not_not.mpr hstart), if_neg (not_not.mpr hlen), if_neg (not_not.mpr hcount),
    if_neg (not_not.mpr (hcrcAt.trans hcrc.symm)), if_neg (not_not.mpr hend), hpayload, payloadOf_toList]

/-- A whole response at the front of the stream is found (R92). -/
theorem peekResponse_whole (stx len b : Byte) (rest : List Byte) (r : List RxItem)
    (h : rest.length = len.toNat + 1) :
    peekResponse ((stx :: len :: b :: rest).map .byte ++ r) = some (stx :: len :: b :: rest, r) := by
  have hheader : pull 2 ((stx :: len :: b :: rest).map .byte ++ r) = ([stx, len], (b :: rest).map .byte ++ r, false) :=
    pull_bytes [stx, len] ((b :: rest).map .byte ++ r)
  have hcount : tailCount (byteAt [stx, len] 1) = (b :: rest).length := by
    rw [show byteAt [stx, len] 1 = len from rfl, tailCount_eq, List.length_cons, h]
  simp only [peekResponse, hheader, hcount, pull_bytes]
  simp

theorem runItem_none (hf : fetchItem s = none) : runItem s = .next (tick s) := by
  simp only [runItem, hf]

theorem runItem_decoded {f : List Byte} {i : Instr} (hf : fetchItem s = some (f, t))
    (hd : decode s.phase.position f = .ok i) : runItem s = exec i t := by
  simp only [runItem, hf, hd]

theorem runItem_undecoded {f : List Byte} {e : DecodeError} (hf : fetchItem s = some (f, t))
    (hd : decode s.phase.position f = .error e) : runItem s = .next (tick s) := by
  simp only [runItem, hf, hd]

theorem runItem_data (hp : s.phase = .dEnc) : runItem s = exec (.data s.data) s := by
  have hf : fetchItem s = some (encodeData s.data, s) := by simp only [fetchItem, hp]
  exact runItem_decoded hf (by rw [hp]; exact decodeData_encodeData s.data)

section response

variable (hp : s.phase = .cRxh ∨ s.phase = .dRxh)
include hp

/-- At a header phase the item is the whole response at the front of the stream. -/
theorem fetchItem_response : fetchItem s = (peekResponse s.rx).map fun p => (p.1, { s with rx := p.2 }) := by
  rcases hp with hp | hp <;> simp only [fetchItem, hp]

theorem runItem_response (stx len b : Byte) (rest : List Byte) (r : List RxItem) (h : rest.length = len.toNat + 1)
    (hrx : s.rx = (stx :: len :: b :: rest).map .byte ++ r) :
    runItem s = exec (.resp stx len b rest) { s with rx := r } := by
  have hf : fetchItem s = some (stx :: len :: b :: rest, { s with rx := r }) := by
    rw [fetchItem_response hp, hrx, peekResponse_whole stx len b rest r h, Option.map_some]
  have hposition : s.phase.position = .response := by rcases hp with hp | hp <;> rw [hp] <;> rfl
  have hdecode : decode .response (stx :: len :: b :: rest) = .ok (.resp stx len b rest) :=
    if_pos (by rw [tailCount_eq, h])
  exact runItem_decoded hf (hposition ▸ hdecode)

theorem runItem_no_response
    (hrx : ∀ stx len b rest r, rest.length = len.toNat + 1 → s.rx ≠ (stx :: len :: b :: rest).map .byte ++ r) :
    runItem s = .next (tick s) := by
  have hpeek : peekResponse s.rx = none := by
    cases hfound : peekResponse s.rx with
    | none => rfl
    | some found =>
      obtain ⟨stx, len, b, rest, hfront, hlen, hstream⟩ := peekResponse_some _ _ _ hfound
      exact absurd (hfront ▸ hstream) (hrx stx len b rest _ hlen)
  exact runItem_none (by rw [fetchItem_response hp, hpeek, Option.map_none])

end response

section check

variable (hp : s.phase = .cChk ∨ s.phase = .dChk)
include hp

/-- At a check phase the item is the status byte. -/
theorem fetchItem_check : fetchItem s = some ([s.status], s) := by
  rcases hp with hp | hp <;> simp only [fetchItem, hp]

theorem position_check : s.phase.position = .status := by
  rcases hp with hp | hp <;> rw [hp] <;> rfl

theorem runItem_status {i : Instr} (hd : decode .status [s.status] = .ok i) : runItem s = exec i s :=
  runItem_decoded (fetchItem_check hp) (position_check hp ▸ hd)

theorem runItem_unlisted_status {e : DecodeError} (hd : decode .status [s.status] = .error e) :
    runItem s = .next (tick s) :=
  runItem_undecoded (fetchItem_check hp) (position_check hp ▸ hd)

end check

/-- Every other phase handles no item. -/
theorem runItem_other (hp : s.phase ∉ [.dEnc, .cRxh, .dRxh, .cChk, .dChk]) : runItem s = .next (tick s) := by
  have hnone : fetchItem s = none := by
    unfold fetchItem
    split <;> simp_all
  exact runItem_none hnone

theorem runFrame_request {f : List Byte} {i : Instr} (hd : decode .request f = .ok i) : runFrame f s = exec i s := by
  simp only [runFrame, hd]

theorem runFrame_no_request {f : List Byte} {e : DecodeError} (hd : decode .request f = .error e) :
    runFrame f s = .refused (.notARequest e) := by
  simp only [runFrame, hd]

/-- Settles O43: clause by clause, the input at the head is taken and run, and the wire item at the phase decodes where
it is whole and has a row. -/
theorem stepRunsTheDecodedInstruction : Obligations.StepRunsTheDecodedInstruction := by
  refine ⟨?nothing, ?quiet, ?call, ?post, ?hreset, ?request, ?noRequest, ?data, ?response, ?noResponse, ?status,
    ?unlistedStatus, ?other⟩
  case nothing => exact fun s h => step_quiet h
  case quiet => exact fun s xs h => step_input h
  case call => exact fun s xs q h => step_call h
  case post => exact fun s xs q h => step_post h
  case hreset => exact fun s xs sent h => step_input h
  case request => exact fun s f xs i h hd => (step_input h).trans (runFrame_request hd)
  case noRequest => exact fun s f xs e h hd => (step_input h).trans (runFrame_no_request hd)
  case data => exact fun s xs h hp => (step_item h).trans (runItem_data hp)
  case response =>
    exact fun s xs stx len b rest r h hp hlen hrx =>
      (step_item h).trans (runItem_response (s := { s with inputs := xs }) hp stx len b rest r hlen hrx)
  case noResponse => exact fun s xs h hp hrx => (step_item h).trans (runItem_no_response hp hrx)
  case status =>
    exact fun s xs i h hp hd => (step_item h).trans (runItem_status (s := { s with inputs := xs }) hp hd)
  case unlistedStatus =>
    exact fun s xs e h hp hd => (step_item h).trans (runItem_unlisted_status (s := { s with inputs := xs }) hp hd)
  case other => exact fun s xs h hp => (step_item h).trans (runItem_other hp)

/-! ## TIMER -/

/-- A read is what the environment answers, recorded. -/
theorem memRead_eq (n : Nat) (s : State) :
    memRead n s = ((readAnswer n s).1, endRead n (readAnswer n s).1 (readAnswer n s).2) := rfl

/-- Settles O19: a delay leaves no time, and a read's end leaves none when bytes are missing and at most its bound
otherwise. -/
theorem timerShowsTheTimeLeft : Obligations.TimerShowsTheTimeLeft := by
  intro s ms n
  rw [memRead_eq]
  refine ⟨delay_timer s ms, ?_, fun hshort => by rw [endRead_timer, if_pos hshort]⟩
  rw [endRead_timer]
  split
  · exact Nat.zero_le _
  · exact Nat.min_le_left _ _

/-! ## Reset -/

/-- Settles O49: at IDLE, in a CLOSED session, with no events, every part of the invariant asks for nothing more. -/
theorem resetMeetsInvariant : Obligations.ResetMeetsInvariant := by
  refine ⟨?phaseFits, ?lengthsFit, ?ctlFits, ?sessionFits, ?exchangeFits, ?sentFits⟩
  case phaseFits => exact rfl
  case lengthsFit => exact ⟨Nat.zero_le _, Nat.zero_le _⟩
  case ctlFits => exact nofun
  case sessionFits => exact trivial
  case exchangeFits => exact trivial
  case sentFits => exact ⟨rfl, rfl⟩

/-- Settles O53: these are the values that the reset state is written with. -/
theorem resetState : Obligations.ResetState :=
  ⟨rfl, rfl, rfl, rfl, rfl, rfl, rfl⟩

end Sys2Proof.Machine
end

section
/-! 20_memory.md: what may reach the line (R51). The frame that a command sends parses back and decodes as a request, so
every frame of the engine is one of the wire items. -/

namespace Sys2Proof.Machine

/-! ## A command frame is a request -/

/-- The three bytes of an address are its value, most significant first (R8, R57). -/
theorem unbe24_extract (a : Addr) :
    unbe24 (a.extractLsb' 16 8) (a.extractLsb' 8 8) (a.extractLsb' 0 8) = a.toNat := by
  have hlt : a.toNat < 16777216 := a.isLt
  simp only [unbe24, BitVec.extractLsb'_toNat, Nat.shiftRight_eq_div_pow, Nat.reducePow]
  omega

/-- The address bytes of a block give the block back (R85, R141). -/
theorem blockOf_addressBytes (n : Nat) (hn : n ≤ Config.maxBlock) : blockOf (addressBytes n) = .ok n := by
  have hstart : unbe ((addressBytes n).take Config.addrBytes) = (startAddress n).toNat :=
    (unbe_three _ _ _).trans (unbe24_extract (startAddress n))
  have hblock : unbe ((addressBytes n).take Config.addrBytes) / Config.blockSize = n := by
    rw [hstart, startAddress, BitVec.toNat_ofNat]
    simp only [Config.maxBlock, Config.blockSize, Config.addrBits] at hn ⊢
    omega
  simp only [blockOf, hblock, if_true]

/-- A command frame parses back to its command byte and address bytes (R141). -/
theorem parseCommand_encodeCommand (c : Byte) (a : List Byte) (ha : a.length = 0 ∨ a.length = 6) :
    parseCommand (encodeCommand c a) = .ok (c, a) := by
  obtain ⟨len, hlen⟩ : ∃ len, BitVec.ofNat 8 (1 + a.length) = len := ⟨_, rfl⟩
  have hcount : len.toNat = 1 + a.length := by
    rw [← hlen, BitVec.toNat_ofNat]
    omega
  have hallowed : ¬(len ≠ Config.lenNoAddr ∧ len ≠ Config.lenAddr) := by
    rcases ha with ha | ha <;> simp [← hlen, ha]
  have hframe : encodeCommand c a =
      Config.stxCmd :: len :: c :: (a ++ [crc (Config.stxCmd :: len :: c :: a) (1 + a.length), Config.etx]) := by
    simp [encodeCommand, ← hlen]
  have hcrc : crc (encodeCommand c a) (1 + a.length) = crc (Config.stxCmd :: len :: c :: a) (1 + a.length) := by
    rw [hframe]
    exact crc_append (Config.stxCmd :: len :: c :: a) _ _ (by simp; omega)
  have hcrcAt : byteAt (encodeCommand c a) (1 + a.length + 2) = crc (encodeCommand c a) (1 + a.length) := by
    rw [hcrc, hframe, show 1 + a.length + 2 = a.length + 3 by omega]
    simp [byteAt]
  have hend : byteAt (encodeCommand c a) (1 + a.length + 3) = Config.etx := by
    rw [hframe, show 1 + a.length + 3 = a.length + 1 + 3 by omega]
    simp [byteAt]
  have hlenAt : byteAt (encodeCommand c a) 1 = len := by rw [hframe]; rfl
  have haddress : ((encodeCommand c a).drop 3).take (1 + a.length - 1) = a := by
    rw [hframe]
    simp
  unfold parseCommand
  simp only [hlenAt, hcount]
  rw [if_neg (by rw [encodeCommand_length]; omega), if_neg (not_not.mpr (by rw [hframe]; rfl)), if_neg hallowed,
    if_neg (not_not.mpr (by rw [encodeCommand_length]; omega)), if_neg (not_not.mpr hcrcAt),
    if_neg (not_not.mpr hend), haddress, hframe]
  rfl

/-- A command frame is not the sync byte alone: what it asks for is what its command byte and addresses select. -/
theorem decodeRequest_encodeCommand (c : Byte) (a : List Byte) (ha : a.length = 0 ∨ a.length = 6) :
    decode .request (encodeCommand c a) = commandOf c a := by
  have hsync : encodeCommand c a ≠ [Config.syncByte] := by
    intro h
    have := congrArg List.length h
    simp [encodeCommand_length] at this
  change decodeRequest (encodeCommand c a) = _
  simp only [decodeRequest, if_neg hsync, parseCommand_encodeCommand c a ha]

/-- The frame that a command sends is a request that the decoder accepts (R51, R96). -/
theorem isSent_commandFrame (op : Op) (blk : BlockIndex) (hop : op.isCommand = true) :
    isSent (commandFrame op blk) = true := by
  have hblock : blockOf (addressBytes blk.toNat) = .ok blk.toNat :=
    blockOf_addressBytes _ (Nat.le_of_lt_succ blk.isLt)
  have haddress : addressBytes blk.toNat ≠ [] := nofun
  have haccepted : (decode .request (commandFrame op blk)).toOption.isSome = true := by
    cases op with
    | none | openPort | resetAndSync | close => cases hop
    | cmdReset | chipErase =>
      rw [commandFrame, decodeRequest_encodeCommand _ _ (.inl rfl)]
      rfl
    | blockErase | blankCheck | program | verify =>
      rw [commandFrame, blockFrame, decodeRequest_encodeCommand _ _ (.inr (addressBytes_length _)), commandOf,
        if_neg haddress, hblock]
      rfl
  rw [isSent, haccepted, Bool.true_or]

theorem isSent_encodeData (p : Payload) : isSent (encodeData p) = true := by
  have haccepted : decode .data (encodeData p) = .ok (.data p) := decodeData_encodeData p
  rw [isSent, haccepted]
  exact Bool.or_true _

theorem commandFrame_length_le (op : Op) (blk : BlockIndex) : (commandFrame op blk).length ≤ 260 := by
  cases op <;> simp [commandFrame, blockFrame, encodeCommand_length, addressBytes_length]

end Sys2Proof.Machine
end

section
/-! 20_memory.md: the transport's primitives on the two streams (R52 to R56), and the host's port, which the phases
never look at (R67). -/

namespace Sys2Proof.Machine

variable {s : State}

/-! ## Reads -/

/-- Bytes before a silence are what a longer read takes, and the silence is used up (R54). -/
theorem pull_silence (v : List Byte) (r : List RxItem) (n : Nat) (h : v.length < n) :
    pull n (v.map .byte ++ .silence :: r) = (v, r, false) := by
  induction v generalizing n with
  | nil =>
    obtain ⟨k, rfl⟩ := Nat.exists_eq_add_of_lt h
    rfl
  | cons b v ih =>
    obtain ⟨k, rfl⟩ : ∃ k, n = k + 1 := ⟨n - 1, by simp at h; omega⟩
    simp [pull, ih k (by simpa using h)]

theorem memRead_silence (v : List Byte) (r : List RxItem) (n : Nat) (s : State) (hv : v.length < n)
    (h : s.rx = v.map .byte ++ .silence :: r) : memRead n s = (v, endRead n v { s with rx := r }) := by
  simp [memRead, readAnswer, h, pull_silence v r n hv]

/-- Settles O17: the read is answered from the front of the stream, and its end records that answer. -/
theorem readTakesTheFrontOfTheStream : Obligations.ReadTakesTheFrontOfTheStream := by
  intro s v r
  refine ⟨fun hrx => ?_, fun n hn hrx => ?_⟩
  · rw [memRead_bytes v r s hrx]
    exact ⟨rfl, rfl, rfl⟩
  · rw [memRead_silence v r n s hn hrx]
    exact ⟨rfl, rfl, rfl⟩

/-- Settles O18: an answer of at most `n` bytes is read from a stream that brings it and then is silent. -/
theorem everyReadAnswerIsAdmitted : Obligations.EveryReadAnswerIsAdmitted := by
  intro s n v
  refine ⟨fun ⟨rx, hrx⟩ => ?_, fun hv => ⟨v.map .byte ++ [.silence], ?_⟩⟩
  · obtain ⟨r, rx', tm, d, hr, e⟩ := memRead_cases n { s with rx := rx }
    rw [e] at hrx
    exact hrx ▸ hr
  · rcases Nat.lt_or_eq_of_le hv with hshort | rfl
    · rw [memRead_silence v [] n _ hshort rfl]
    · rw [memRead_bytes v [.silence] _ rfl]

/-! ## Writes -/

/-- Settles O20: a write has one of two ends, and each is written out as a whole state. -/
theorem writeAppendsAllOrAPrefix : Obligations.WriteAppendsAllOrAPrefix := by
  intro s v
  rcases memWrite_cases v s with ⟨w, d, e⟩ | ⟨w, d, k, e⟩ <;> simp only [e]
  · exact ⟨fun _ => ⟨trivial, trivial⟩, nofun, trivial⟩
  · exact ⟨nofun, fun _ => ⟨⟨k, rfl⟩, trivial⟩, trivial⟩

/-- Settles O21: the transport answers with an error and the number of bytes that went out. -/
theorem everyPrefixIsPossibleAfterAFailedWrite : Obligations.EveryPrefixIsPossibleAfterAFailedWrite := by
  intro s v v' hprefix
  refine ⟨.error v'.length, ?_⟩
  rw [memWrite_error v _ [] v'.length rfl, ← List.prefix_iff_eq_take.mp hprefix]
  exact ⟨rfl, rfl⟩

/-! ## The host's port -/

/-- The state with another payload at the host port and other requests to come. -/
def State.withHost (p : List Byte) (xs : List Input) (s : State) : State := { s with offer := p, inputs := xs }

variable (p : List Byte) (xs : List Input)

theorem raiseFailure_withHost (f : Failure) (x : Option Exchange) (s : State) :
    raiseFailure f x (s.withHost p xs) = (raiseFailure f x s).withHost p xs := by
  by_cases h : s.op = .openPort <;> simp [raiseFailure, State.withHost, finish, h]

theorem openAnswer_withHost (s : State) :
    openAnswer (s.withHost p xs) = ((openAnswer s).1, (openAnswer s).2.withHost p xs) := by
  cases h : s.opens <;> simp [openAnswer, State.withHost, h]

theorem writeAnswer_withHost (s : State) :
    writeAnswer (s.withHost p xs) = ((writeAnswer s).1, (writeAnswer s).2.withHost p xs) := by
  cases h : s.writes <;> simp [writeAnswer, State.withHost, h]

theorem memWrite_withHost (v : List Byte) (s : State) :
    memWrite v (s.withHost p xs) = ((memWrite v s).1, (memWrite v s).2.withHost p xs) := by
  rw [memWrite, memWrite, writeAnswer_withHost]
  rcases writeAnswer s with ⟨ok | k, t⟩ <;> rfl

theorem readAnswer_withHost (n : Nat) (s : State) :
    readAnswer n (s.withHost p xs) = ((readAnswer n s).1, (readAnswer n s).2.withHost p xs) := by
  rw [readAnswer, readAnswer, show (s.withHost p xs).rx = s.rx from rfl]
  rcases pull n s.rx with ⟨v, r, ranOut⟩
  cases ranOut <;> rfl

theorem memRead_withHost (n : Nat) (s : State) :
    memRead n (s.withHost p xs) = ((memRead n s).1, (memRead n s).2.withHost p xs) := by
  rw [memRead_eq, memRead_eq, readAnswer_withHost]
  rfl

theorem openStep_withHost (s : State) : openStep (s.withHost p xs) = (openStep s).withHost p xs := by
  rw [openStep, openStep, openAnswer_withHost]
  rcases openAnswer s with ⟨ok, t⟩
  cases ok with
  | true => rfl
  | false => exact raiseFailure_withHost p xs _ _ { t with hist := t.hist ++ [.opened t.port false] }

theorem closeStep_withHost (s : State) : closeStep (s.withHost p xs) = (closeStep s).withHost p xs := by
  by_cases h : s.sess = .closed <;> simp [closeStep, State.withHost, finish, h]

theorem syncStep_withHost (next : Phase) (s : State) :
    syncStep next (s.withHost p xs) = (syncStep next s).withHost p xs := by
  rw [syncStep, syncStep, memWrite_withHost]
  rcases memWrite [Config.syncByte] s with ⟨ok, t⟩
  cases ok with
  | true => rfl
  | false => exact raiseFailure_withHost p xs _ _ t

theorem writeStep_withHost (next : Phase) (x : Exchange) (s : State) :
    writeStep next x (s.withHost p xs) = (writeStep next x s).withHost p xs := by
  rw [writeStep, writeStep, memWrite_withHost, show (s.withHost p xs).txFrame = s.txFrame from rfl]
  rcases memWrite s.txFrame s with ⟨ok, t⟩
  cases ok with
  | true => rfl
  | false => exact raiseFailure_withHost p xs _ _ t

theorem takeHeader_withHost (v : List Byte) (next : Phase) (x : Exchange) (s : State) :
    takeHeader v next x (s.withHost p xs) = (takeHeader v next x s).withHost p xs := by
  unfold takeHeader
  split
  · exact raiseFailure_withHost p xs _ _ { s with statusV := false, rxbuf := overlay s.rxbuf 0 v, rxlen := v.length }
  · rfl

theorem takeTail_withHost (n : Nat) (v : List Byte) (next : Phase) (x : Exchange) (s : State) :
    takeTail n v next x (s.withHost p xs) = (takeTail n v next x s).withHost p xs := by
  unfold takeTail
  split
  · exact raiseFailure_withHost p xs _ _ { s with rxbuf := overlay s.rxbuf 2 v, rxlen := 2 + v.length }
  · rfl

theorem headerStep_withHost (next : Phase) (x : Exchange) (s : State) :
    headerStep next x (s.withHost p xs) = (headerStep next x s).withHost p xs := by
  rw [headerStep, headerStep, memRead_withHost]
  exact takeHeader_withHost p xs _ _ _ _

theorem tailStep_withHost (next : Phase) (x : Exchange) (s : State) :
    tailStep next x (s.withHost p xs) = (tailStep next x s).withHost p xs := by
  simp only [tailStep, show (s.withHost p xs).rxbuf = s.rxbuf from rfl, memRead_withHost]
  exact takeTail_withHost p xs _ _ _ _ _

theorem judge_withHost (b : Byte) (s : State) : judge b (s.withHost p xs) = (judge b s).withHost p xs := by
  have hfail := fun f x => raiseFailure_withHost p xs f x s
  rw [judge, judge, show (s.withHost p xs).phase = s.phase from rfl, show (s.withHost p xs).op = s.op from rfl, hfail,
    hfail]
  repeat' split
  all_goals rfl

/-- No phase looks at the host's port, and none touches it. -/
theorem tick_withHost (s : State) : tick (s.withHost p xs) = (tick s).withHost p xs := by
  rw [tick, tick, show (s.withHost p xs).phase = s.phase from rfl]
  cases s.phase with
  | opening => exact openStep_withHost p xs s
  | hs6 | hs8 => exact syncStep_withHost p xs _ s
  | cTx | dTx => exact writeStep_withHost p xs _ _ s
  | cRxh | dRxh => exact headerStep_withHost p xs _ _ s
  | cRxt | dRxt => exact tailStep_withHost p xs _ _ s
  | cChk | dChk => exact judge_withHost p xs _ s
  | closing => exact closeStep_withHost p xs s
  | idle | hs0 | hs1 | hs2 | hs3 | hs4 | hs5 | hs7 | hs9 | cEnc | dEnc => rfl

theorem ticks_withHost (k : Nat) (s : State) : ticks k (s.withHost p xs) = (ticks k s).withHost p xs := by
  induction k generalizing s with
  | zero => rfl
  | succ k ih => rw [ticks, ticks, tick_withHost, ih]

/-- A payload that comes with a request changes the host's port only. -/
theorem supply_eq (q : Request) (s : State) : ∃ p, supply q s = { s with offer := p } := by
  cases q with
  | program n v | verify n v => exact ⟨v, rfl⟩
  | openPort | resetAndSync | cmdReset | chipErase | blockErase | blankCheck | close => exact ⟨s.offer, rfl⟩

/-- Settles O37: each phase commutes with a change of the host's port, and a request that finds the engine busy is
answered Busy. -/
theorem runningOperationIgnoresTheHost : Obligations.RunningOperationIgnoresTheHost := by
  refine ⟨fun s p xs k => ticks_withHost p xs k s, fun s q xs hbusy hinputs => ?_⟩
  obtain ⟨p, hp⟩ := supply_eq q { s with inputs := xs }
  refine ⟨p, ?_⟩
  rw [step_post hinputs, hp, post, if_neg hbusy]
  rfl

end Sys2Proof.Machine
end

section
/-! 20_memory.md: every step keeps the invariant. A state of each session is described by what no phase of that session
changes, and each phase is a lemma: it records its event, and goes on to the next phase or ends without a session. -/

namespace Sys2Proof.Machine

variable {s t : State}

/-! ## Events that keep what was sent right -/

/-- The write of bytes that begin as a data frame does. -/
def Event.startsData : Event → Bool
  | .tx f _ => byteAt f 0 == Config.stxData
  | .opened _ _ | .ctl _ | .delay _ | .rx _ _ | .closed => false

theorem dataFramesJustified_cons (e : Event) (older : List Event) :
    dataFramesJustified (e :: older) =
      ((!e.startsData || ackedTwoPhase older) && dataFramesJustified older) := by
  cases e <;> simp [dataFramesJustified, Event.startsData, bne]

/-- One more event keeps SentFits when it sends a wire item, and a data frame only after its ACK. -/
theorem sentFits_record (h : s.SentFits) {e : Event} (hsends : sendsFrame e = true)
    (hdata : e.startsData = true → ackedTwoPhase s.hist.reverse = true) :
    State.SentFits { s with hist := s.hist ++ [e] } := by
  obtain ⟨hall, hjustified⟩ := h
  refine ⟨by simp [hall, hsends], ?_⟩
  rw [List.reverse_append, List.reverse_singleton, List.singleton_append, dataFramesJustified_cons, hjustified,
    Bool.and_true, Bool.or_eq_true, Bool.not_eq_true']
  cases he : e.startsData with
  | false => exact .inl rfl
  | true => exact .inr (hdata he)

/-! ## The invariant by session state

In each session state the invariant is a part that no phase of that session changes, and what the phase adds to it. -/

/-- What holds throughout a SYNCED session (R165, R226). -/
structure State.Synced (s : State) : Prop where
  sess : s.sess = .synced
  ctl : s.ctl = true
  session : ∃ pre post, s.hist = pre ++ Event.opened s.port true :: (handshake ++ post)
    ∧ post.all Event.isTransfer = true
  lengths : s.LengthsFit
  sent : s.SentFits

/-- What holds in an OPEN session after the first `k` events of the handshake (R164). -/
structure State.Opened (k : Nat) (s : State) : Prop where
  sess : s.sess = .opened
  session : ∃ pre, s.hist = pre ++ Event.opened s.port true :: handshake.take k
  lengths : s.LengthsFit
  sent : s.SentFits

/-- The invariant with the phase written out, for its phase by phase reading. -/
theorem inv_at_phase {p : Phase} (hp : s.phase = p) (h : s.Inv) : State.Inv { s with phase := p } := by
  subst hp
  exact h

theorem ctlFits_iff (h : s.phase.handshakeDone = 0) : s.CtlFits ↔ (s.sess = .synced → s.ctl = true) := by
  unfold State.CtlFits
  split <;> simp_all [Phase.handshakeDone]

/-- Only the phase OPENING has the operation OPEN, and only in CLOSED. -/
theorem closed_of_openPort (h : s.PhaseFits) (ho : s.op = .openPort) : s.sess = .closed := by
  unfold State.PhaseFits at h
  split at h <;> simp_all [Op.isCommand, Op.twoPhase]

theorem handshakeDone_of_synced (h : s.PhaseFits) (hs : s.sess = .synced) : s.phase.handshakeDone = 0 := by
  unfold State.PhaseFits at h
  split at h <;> simp_all [Phase.handshakeDone]

theorem State.Inv.synced (h : s.Inv) (hs : s.sess = .synced) : s.Synced := by
  obtain ⟨hphase, hlengths, hctl, hsession, -, hsent⟩ := h
  simp only [State.SessionFits, hs] at hsession
  exact ⟨hs, (ctlFits_iff (handshakeDone_of_synced hphase hs)).mp hctl hs, hsession, hlengths, hsent⟩

theorem State.Synced.inv (h : s.Synced) (hphase : s.PhaseFits) (hexchange : s.ExchangeFits) : s.Inv := by
  refine ⟨hphase, h.lengths, ?_, ?_, hexchange, h.sent⟩
  · exact (ctlFits_iff (handshakeDone_of_synced hphase h.sess)).mpr fun _ => h.ctl
  · simpa only [State.SessionFits, h.sess] using h.session

theorem State.Inv.opened (h : s.Inv) (hs : s.sess = .opened) : s.Opened s.phase.handshakeDone := by
  obtain ⟨-, hlengths, -, hsession, -, hsent⟩ := h
  simp only [State.SessionFits, hs] at hsession
  exact ⟨hs, hsession, hlengths, hsent⟩

/-- An OPEN session has no exchange (R180). -/
theorem exchangeFits_of_opened (h : s.PhaseFits) (hs : s.sess = .opened) : s.ExchangeFits := by
  unfold State.PhaseFits at h
  split at h <;> simp_all [State.ExchangeFits]

theorem State.Opened.inv (h : s.Opened s.phase.handshakeDone) (hphase : s.PhaseFits) (hctl : s.CtlFits) : s.Inv :=
  ⟨hphase, h.lengths, hctl, by simpa only [State.SessionFits, h.sess] using h.session,
    exchangeFits_of_opened hphase h.sess, h.sent⟩

/-- At IDLE without a session nothing more is asked. -/
theorem inv_of_no_session (hp : s.phase = .idle) (ho : s.op = .none) (hs : s.sess = .closed ∨ s.sess = .failed)
    (hlengths : s.LengthsFit) (hsent : s.SentFits) : s.Inv := by
  refine ⟨?_, hlengths, ?_, ?_, ?_, hsent⟩
  · simp only [State.PhaseFits, hp, ho]
  · rw [ctlFits_iff (hp ▸ rfl)]
    rcases hs with hs | hs <;> simp [hs]
  · rcases hs with hs | hs <;> simp only [State.SessionFits, hs]
  · simp only [State.ExchangeFits, hp]

/-! ## The ends of an operation -/

/-- A failure leaves no session: a failed OPEN stays CLOSED, every other failure enters FAILED (R221). -/
theorem raiseFailure_inv (f : Failure) (x : Option Exchange) (ho : s.op = .openPort → s.sess = .closed)
    (hlengths : s.LengthsFit) (hsent : s.SentFits) : (raiseFailure f x s).Inv := by
  refine inv_of_no_session (by simp) (by simp) ?_ (by simpa [State.LengthsFit] using hlengths)
    (by simpa [State.SentFits] using hsent)
  rw [raiseFailure_sess]
  split
  · exact .inl (ho ‹_›)
  · exact .inr rfl

theorem State.Synced.finish (h : s.Synced) (r : Result) : (finish r s).Inv :=
  State.Synced.inv ⟨h.sess, h.ctl, h.session, h.lengths, h.sent⟩ rfl trivial

theorem State.Opened.finish (h : s.Opened 0) (r : Result) : (finish r s).Inv :=
  State.Opened.inv ⟨h.sess, h.session, h.lengths, h.sent⟩ rfl fun hs => absurd (h.sess.symm.trans hs) nofun

/-! ## The session's phases -/

theorem openStep_inv (h : s.Inv) (hp : s.phase = .opening) : (openStep s).Inv := by
  obtain ⟨⟨hop, hclosed⟩, hlengths, -, -, -, hsent⟩ := inv_at_phase hp h
  have hsent' : ∀ ok, State.SentFits { s with hist := s.hist ++ [.opened s.port ok] } :=
    fun ok => sentFits_record hsent rfl nofun
  rcases openStep_cases s with ⟨o, d, e⟩ | ⟨o, d, e⟩ <;> rw [e]
  · refine State.Opened.finish ?_ _
    exact ⟨rfl, ⟨s.hist, rfl⟩, hlengths, hsent' true⟩
  · exact raiseFailure_inv _ _ (fun _ => hclosed) hlengths (hsent' false)

theorem closeStep_inv (h : s.Inv) : (closeStep s).Inv := by
  obtain ⟨-, hlengths, -, -, -, hsent⟩ := h
  unfold closeStep
  split
  · exact inv_of_no_session rfl rfl (.inl ‹_›) hlengths hsent
  · exact inv_of_no_session rfl rfl (.inl rfl) hlengths (sentFits_record hsent rfl nofun)

/-- The next event of the handshake is recorded. -/
theorem State.Opened.record {k : Nat} {e : Event} (h : s.Opened k) (he : handshake[k]? = some e) :
    State.Opened (k + 1) { s with hist := s.hist ++ [e] } := by
  obtain ⟨pre, hpre⟩ := h.session
  have hquiet : ∀ e ∈ handshake, sendsFrame e = true ∧ e.startsData = false := by decide
  obtain ⟨hsends, hdata⟩ := hquiet e (List.mem_of_getElem? he)
  refine ⟨h.sess, ⟨pre, ?_⟩, h.lengths, sentFits_record h.sent hsends (by simp [hdata])⟩
  simp [hpre, List.take_add_one, he]

/-- A phase of the handshake that does its event goes on to the next (R163, R164). -/
theorem handshake_inv {p next : Phase} {e : Event} {c : Bool} {tm : Nat} (h : s.Inv) (hp : s.phase = p)
    (hs : s.sess = .opened) (he : handshake[p.handshakeDone]? = some e)
    (hn : next.handshakeDone = p.handshakeDone + 1)
    (hphase : State.PhaseFits { s with phase := next }) (hctl : State.CtlFits { s with ctl := c, phase := next }) :
    State.Inv { s with ctl := c, timer := tm, hist := s.hist ++ [e], phase := next } := by
  obtain ⟨-, hsession, hlengths, hsent⟩ := (hp ▸ h.opened hs).record he
  exact State.Opened.inv ⟨hs, hn ▸ hsession, hlengths, hsent⟩ hphase hctl

/-- A sync byte is the handshake's next event; one that cannot be written ends the session. -/
theorem syncStep_inv {p next : Phase} (h : s.Inv) (hp : s.phase = p) (hs : s.sess = .opened)
    (he : handshake[p.handshakeDone]? = some (.tx [0x00#8] true)) (hn : next.handshakeDone = p.handshakeDone + 1)
    (hphase : State.PhaseFits { s with phase := next }) (hctl : State.CtlFits { s with phase := next }) :
    (syncStep next s).Inv := by
  rcases syncStep_cases next s with ⟨w, d, e⟩ | ⟨w, d, k, e⟩ <;> rw [e]
  · exact handshake_inv (tm := s.timer) h hp hs he hn hphase hctl
  · obtain ⟨-, -, hlengths, hsent⟩ := h.opened hs
    exact raiseFailure_inv _ _ (closed_of_openPort h.1) hlengths (sentFits_record hsent rfl nofun)

/-- The last event of the handshake makes the session SYNCED, with the control line as it was last driven (R165). -/
theorem handshake_completes {r : Result} (h : s.Inv) (hp : s.phase = .hs9) :
    (finish r { delay Config.tShort s with sess := .synced }).Inv := by
  obtain ⟨⟨-, hs⟩, -, hctl, -⟩ := inv_at_phase hp h
  obtain ⟨-, ⟨pre, hpre⟩, hlengths, hsent⟩ := (h.opened hs).record (e := .delay 11) (hp ▸ rfl)
  rw [hp] at hpre
  refine State.Synced.finish ?_ r
  exact ⟨rfl, hctl, ⟨pre, [], hpre, rfl⟩, hlengths, hsent⟩

/-! ## The phases of an exchange -/

/-- A write or a read is recorded in a SYNCED session. -/
theorem State.Synced.record {e : Event} (h : s.Synced) (htransfer : e.isTransfer = true) (hsends : sendsFrame e = true)
    (hdata : e.startsData = true → ackedTwoPhase s.hist.reverse = true) :
    State.Synced { s with hist := s.hist ++ [e] } := by
  obtain ⟨pre, post, hhist, hpost⟩ := h.session
  refine ⟨h.sess, h.ctl, ⟨pre, post ++ [e], ?_, ?_⟩, h.lengths, sentFits_record h.sent hsends hdata⟩
  · simp [hhist]
  · simp [hpost, htransfer]

theorem State.Synced.read (h : s.Synced) (n : Nat) (v : List Byte) :
    State.Synced { s with hist := s.hist ++ [.rx n v] } :=
  h.record rfl rfl nofun

theorem encodeStep_inv {f : List Byte} {next : Phase} (h : s.Inv) (hs : s.sess = .synced) (hf : f.length ≤ 260)
    (hphase : State.PhaseFits { s with phase := next }) (hexchange : (encodeStep f next s).ExchangeFits) :
    (encodeStep f next s).Inv := by
  obtain ⟨-, hctl, hsession, ⟨-, hrxlen⟩, hsent⟩ := h.synced hs
  exact State.Synced.inv ⟨hs, hctl, hsession, ⟨hf, hrxlen⟩, hsent⟩ hphase hexchange

/-- A frame that may be sent here is written, or the write fails and the session with it (R53, R190). -/
theorem writeStep_inv {next : Phase} {x : Exchange} (h : s.Inv) (hs : s.sess = .synced)
    (hframe : isSent s.txFrame = true)
    (hdata : byteAt s.txFrame 0 = Config.stxData → ackedTwoPhase s.hist.reverse = true)
    (hphase : State.PhaseFits { s with phase := next })
    (hexchange : State.ExchangeFits { s with hist := s.hist ++ [.tx s.txFrame true], phase := next }) :
    (writeStep next x s).Inv := by
  have hwritten : ∀ ok, State.Synced { s with hist := s.hist ++ [.tx s.txFrame ok] } :=
    fun ok => (h.synced hs).record rfl hframe fun hd => hdata (eq_of_beq hd)
  rcases writeStep_cases next x s with ⟨w, d, e⟩ | ⟨w, d, k, e⟩ <;> rw [e]
  · obtain ⟨-, hctl, hsession, hlengths, hsent⟩ := hwritten true
    exact State.Synced.inv ⟨hs, hctl, hsession, hlengths, hsent⟩ hphase hexchange
  · exact raiseFailure_inv _ _ (closed_of_openPort h.1) (hwritten false).lengths (hwritten false).sent

section reads

variable {next : Phase} {x : Exchange} {v : List Byte} {rx : List RxItem} {tm d : Nat}

/-- A header of two bytes is taken; a shorter one fails and the session with it (R134). -/
theorem takeHeader_inv (h : s.Inv) (hs : s.sess = .synced) (hv : v.length ≤ 2)
    (hphase : State.PhaseFits { s with phase := next })
    (hexchange : v.length = 2 → State.ExchangeFits
      { s with
        statusV := false, rxbuf := overlay s.rxbuf 0 v, rxlen := 2, hist := s.hist ++ [.rx 2 v], phase := next }) :
    (takeHeader v next x { s with rx := rx, timer := tm, draws := d, hist := s.hist ++ [.rx 2 v] }).Inv := by
  obtain ⟨-, hctl, hsession, ⟨htxlen, -⟩, hsent⟩ := (h.synced hs).read 2 v
  rcases Nat.lt_or_eq_of_le hv with hshort | hfull
  · rw [takeHeader_short _ _ _ _ hshort]
    exact raiseFailure_inv _ _ (closed_of_openPort h.1) ⟨htxlen, by show v.length ≤ 259; omega⟩ hsent
  · rw [takeHeader_full _ _ _ _ hfull]
    exact State.Synced.inv ⟨hs, hctl, hsession, ⟨htxlen, by show 2 ≤ 259; omega⟩, hsent⟩ hphase (hexchange hfull)

/-- A whole tail is taken, and its first byte is the status; a shorter one fails and the session with it (R135). -/
theorem takeTail_inv (h : s.Inv) (hs : s.sess = .synced) (hv : v.length ≤ tailCount s.rxbuf[1])
    (hphase : State.PhaseFits { s with phase := next })
    (hexchange : v.length = tailCount s.rxbuf[1] → State.ExchangeFits
      { s with
        rxbuf := overlay s.rxbuf 2 v, rxlen := 2 + tailCount s.rxbuf[1], status := byteAt v 0, statusV := true
        hist := s.hist ++ [.rx (tailCount s.rxbuf[1]) v], phase := next }) :
    (takeTail (tailCount s.rxbuf[1]) v next x
      { s with rx := rx, timer := tm, draws := d, hist := s.hist ++ [.rx (tailCount s.rxbuf[1]) v] }).Inv := by
  obtain ⟨hmin, hmax⟩ := tailCount_bounds s.rxbuf[1]
  obtain ⟨-, hctl, hsession, ⟨htxlen, -⟩, hsent⟩ := (h.synced hs).read (tailCount s.rxbuf[1]) v
  rcases Nat.lt_or_eq_of_le hv with hshort | hfull
  · rw [takeTail_short _ _ _ _ _ hshort]
    exact raiseFailure_inv _ _ (closed_of_openPort h.1) ⟨htxlen, by show 2 + v.length ≤ 259; omega⟩ hsent
  · rw [takeTail_full _ _ _ _ _ hfull (by omega) hmax]
    exact State.Synced.inv ⟨hs, hctl, hsession, ⟨htxlen, by show 2 + tailCount s.rxbuf[1] ≤ 259; omega⟩, hsent⟩
      hphase (hexchange hfull)

/-! ### Each read at its phase -/

theorem commandHeader_inv (h : s.Inv) (hp : s.phase = .cRxh) (hv : v.length ≤ 2) :
    (takeHeader v .cRxt .command { s with rx := rx, timer := tm, draws := d, hist := s.hist ++ [.rx 2 v] }).Inv := by
  obtain ⟨⟨hop, hs⟩, -, -, -, ⟨pre, hpre⟩, -⟩ := inv_at_phase hp h
  refine takeHeader_inv h hs hv ⟨hop, hs⟩ fun hfull => ⟨pre, v, ?_, ?_, hfull⟩
  · dsimp only at hpre
    simp [hpre]
  · simpa only [State.rxFrame, hfull] using overlay_take s.rxbuf v (by simp [hfull])

theorem dataHeader_inv (h : s.Inv) (hp : s.phase = .dRxh) (hv : v.length ≤ 2) :
    (takeHeader v .dRxt .data { s with rx := rx, timer := tm, draws := d, hist := s.hist ++ [.rx 2 v] }).Inv := by
  obtain ⟨⟨hop, hs⟩, -⟩ := inv_at_phase hp h
  exact takeHeader_inv h hs hv ⟨hop, hs⟩ fun _ => rfl

/-- RXBUF with a whole tail behind the header is the response. -/
theorem overlay_tail (buf : Vector Byte 259) (n : Nat) (hv : v.length = n) (hn : n ≤ 257) :
    (overlay buf 2 v).toList.take (2 + n) = buf.toList.take 2 ++ v :=
  hv ▸ overlay_take_add buf 2 v (by omega)

theorem byteAt_behind_two {a b : List Byte} (ha : a.length = 2) : byteAt (a ++ b) 2 = byteAt b 0 := by
  unfold byteAt
  rw [List.getElem?_append_right (by omega), ha]

/-- The header of a response in RXBUF holds its LEN byte. -/
theorem len_of_header (hframe : s.rxFrame = v) (hv : v.length = 2) :
    s.rxbuf.toList.take 2 = v ∧ s.rxbuf[1] = byteAt v 1 := by
  have hrxlen : s.rxlen = 2 := by
    have hlength := congrArg List.length hframe
    simp [State.rxFrame, hv] at hlength
    omega
  have htake : s.rxbuf.toList.take 2 = v := by rw [← hframe, State.rxFrame, hrxlen]
  refine ⟨htake, ?_⟩
  rw [← htake, vector_getElem_toList]
  simp [byteAt]

theorem commandTail_inv (h : s.Inv) (hp : s.phase = .cRxt) (hv : v.length ≤ tailCount s.rxbuf[1]) :
    (takeTail (tailCount s.rxbuf[1]) v .cChk .command
      { s with rx := rx, timer := tm, draws := d, hist := s.hist ++ [.rx (tailCount s.rxbuf[1]) v] }).Inv := by
  obtain ⟨⟨hop, hs⟩, -, -, -, ⟨pre, hd, hhist, hframe, hheader⟩, -⟩ := inv_at_phase hp h
  obtain ⟨htake, hlen⟩ := len_of_header (s := s) hframe hheader
  refine takeTail_inv h hs hv ⟨hop, hs⟩ fun hfull => ⟨pre, hd, v, ?_, ?_, hheader, hlen ▸ hfull, ?_, rfl⟩
  · dsimp only at hhist
    simp [hhist, hlen]
  · simpa only [State.rxFrame, htake] using overlay_tail s.rxbuf _ hfull (tailCount_bounds _).2
  · exact (byteAt_behind_two hheader).symm

theorem dataTail_inv (h : s.Inv) (hp : s.phase = .dRxt) (hv : v.length ≤ tailCount s.rxbuf[1]) :
    (takeTail (tailCount s.rxbuf[1]) v .dChk .data
      { s with rx := rx, timer := tm, draws := d, hist := s.hist ++ [.rx (tailCount s.rxbuf[1]) v] }).Inv := by
  obtain ⟨⟨hop, hs⟩, -⟩ := inv_at_phase hp h
  refine takeTail_inv h hs hv ⟨hop, hs⟩ fun hfull => ⟨rfl, ?_⟩
  have hframe := overlay_tail s.rxbuf _ hfull (tailCount_bounds _).2
  simp only [State.rxFrame, hframe]
  exact (byteAt_behind_two (by simp)).symm

end reads

/-! ### The check -/

/-- Behind the ACK of a Program or Verify command stands what a data frame needs (R190). -/
theorem ackedTwoPhase_of_ack {op : Op} {blk : BlockIndex} {pre : List Event} {hd v : List Byte}
    (hop : op.twoPhase = true) (hheader : hd.length = 2) (htail : v.length = tailCount (byteAt hd 1))
    (hack : byteAt (hd ++ v) 2 = Config.stAck) :
    ackedTwoPhase
      (pre ++ [Event.tx (commandFrame op blk) true, .rx 2 hd, .rx (tailCount (byteAt hd 1)) v]).reverse = true := by
  have hframe : ∃ c, (c = Config.cmdProgram ∨ c = Config.cmdVerify) ∧ commandFrame op blk = blockFrame c blk.toNat := by
    cases op with
    | program => exact ⟨_, .inl rfl, rfl⟩
    | verify => exact ⟨_, .inr rfl, rfl⟩
    | none | openPort | resetAndSync | cmdReset | chipErase | blockErase | blankCheck | close => cases hop
  obtain ⟨c, hc, hframe⟩ := hframe
  have hlength : (blockFrame c blk.toNat).length = 11 := encodeCommand_length _ _
  have hstart : byteAt (blockFrame c blk.toNat) 0 = Config.stxCmd := rfl
  have hlen : byteAt (blockFrame c blk.toNat) 1 = Config.lenAddr := rfl
  have hcommand : byteAt (blockFrame c blk.toNat) 2 = c := rfl
  simp [ackedTwoPhase, hframe, hlength, hstart, hlen, hcommand, hc, hheader, htail, hack]

/-- The command exchange's check: ACK of a two-phase command is what the data phase needs; every other status ends
the operation. -/
theorem judge_command_inv (h : s.Inv) (hp : s.phase = .cChk) : (judge s.status s).Inv := by
  obtain ⟨⟨-, hs⟩, -, -, -, ⟨pre, hd, v, hhist, -, hheader, htail, hstatus, -⟩, -⟩ := inv_at_phase hp h
  have hsynced := h.synced hs
  unfold judge
  rw [if_neg (by simp [hp])]
  split
  · exact hsynced.finish _
  · split
    · split
      next hack hop =>
        obtain ⟨-, hctl, hsession, hlengths, hsent⟩ := hsynced
        refine State.Synced.inv ⟨hs, hctl, hsession, hlengths, hsent⟩ ⟨hop, hs⟩ ?_
        dsimp only at hhist hstatus
        simp only [State.ExchangeFits, hhist]
        exact ackedTwoPhase_of_ack hop hheader htail (hstatus.symm.trans hack)
      · exact hsynced.finish _
    · exact raiseFailure_inv _ _ (closed_of_openPort h.1) hsynced.lengths hsynced.sent

/-- The data exchange's check ends the operation. -/
theorem judge_data_inv (h : s.Inv) (hp : s.phase = .dChk) : (judge s.status s).Inv := by
  obtain ⟨⟨-, hs⟩, -⟩ := inv_at_phase hp h
  have hsynced := h.synced hs
  unfold judge
  rw [if_pos hp]
  split
  · exact hsynced.finish _
  · exact raiseFailure_inv _ _ (closed_of_openPort h.1) hsynced.lengths hsynced.sent

/-! ## The sequencer -/

theorem commandFrame_start {op : Op} (blk : BlockIndex) (hop : op.isCommand = true) :
    byteAt (commandFrame op blk) 0 = Config.stxCmd := by
  cases op with
  | none | openPort | resetAndSync | close => cases hop
  | cmdReset | chipErase | blockErase | blankCheck | program | verify => rfl

/-- Every phase keeps the invariant. -/
theorem tick_inv (h : s.Inv) : (tick s).Inv := by
  unfold tick
  cases hp : s.phase with
  | idle => exact h
  | opening => exact openStep_inv h hp
  | closing => exact closeStep_inv h
  | hs6 | hs8 =>
    obtain ⟨⟨hop, hs⟩, -, hctl, -⟩ := inv_at_phase hp h
    exact syncStep_inv h hp hs rfl rfl ⟨hop, hs⟩ hctl
  | hs9 => exact handshake_completes h hp
  | hs0 | hs2 | hs4 =>
    obtain ⟨⟨hop, hs⟩, -⟩ := inv_at_phase hp h
    refine handshake_inv h hp hs ?_ ?_ ?_ ?_
    exacts [rfl, rfl, ⟨hop, hs⟩, rfl]
  | hs1 | hs3 | hs5 | hs7 =>
    obtain ⟨⟨hop, hs⟩, -, hctl, -⟩ := inv_at_phase hp h
    refine handshake_inv h hp hs ?_ ?_ ?_ ?_
    exacts [rfl, rfl, ⟨hop, hs⟩, hctl]
  | cEnc =>
    obtain ⟨⟨hop, hs⟩, -⟩ := inv_at_phase hp h
    have hlen := commandFrame_length_le s.op s.blk
    exact encodeStep_inv h hs hlen ⟨hop, hs⟩ (txFrame_encodeStep _ _ _ hlen)
  | cTx =>
    obtain ⟨⟨hop, hs⟩, -, -, -, hframe, -⟩ := inv_at_phase hp h
    have hframe : s.txFrame = commandFrame s.op s.blk := hframe
    refine writeStep_inv h hs (hframe ▸ isSent_commandFrame _ _ hop) (fun hd => ?_) ⟨hop, hs⟩ ⟨s.hist, ?_⟩
    · rw [hframe, commandFrame_start _ hop] at hd
      cases hd
    · rw [hframe]
  | cRxh =>
    obtain ⟨v, rx, tm, d, hv, e⟩ := headerStep_cases .cRxt .command s
    exact e ▸ commandHeader_inv h hp hv
  | cRxt =>
    obtain ⟨v, rx, tm, d, hv, e⟩ := tailStep_cases .cChk .command s
    exact e ▸ commandTail_inv h hp hv
  | cChk => exact judge_command_inv h hp
  | dEnc =>
    obtain ⟨⟨hop, hs⟩, -, -, -, hacked, -⟩ := inv_at_phase hp h
    have hlen : (encodeData s.data).length ≤ 260 := (encodeData_length _).le
    exact encodeStep_inv h hs hlen ⟨hop, hs⟩ ⟨hacked, txFrame_encodeStep _ _ _ hlen⟩
  | dTx =>
    obtain ⟨⟨hop, hs⟩, -, -, -, ⟨hacked, hframe⟩, -⟩ := inv_at_phase hp h
    have hframe : s.txFrame = encodeData s.data := hframe
    exact writeStep_inv h hs (hframe ▸ isSent_encodeData _) (fun _ => hacked) ⟨hop, hs⟩ trivial
  | dRxh =>
    obtain ⟨v, rx, tm, d, hv, e⟩ := headerStep_cases .dRxt .data s
    exact e ▸ dataHeader_inv h hp hv
  | dRxt =>
    obtain ⟨v, rx, tm, d, hv, e⟩ := tailStep_cases .dChk .data s
    exact e ▸ dataTail_inv h hp hv
  | dChk => exact judge_data_inv h hp

theorem ticks_inv (k : Nat) (h : s.Inv) : (ticks k s).Inv := by
  induction k generalizing s with
  | zero => exact h
  | succ k ih => exact ih (tick_inv h)

/-! ## The moves of a step -/

/-- From IDLE, a state with the same session at a phase outside the handshake keeps the invariant. -/
theorem inv_of_idle (h : s.Inv) (hp : s.phase = .idle) (hphase : t.PhaseFits) (hexchange : t.ExchangeFits)
    (hdone : t.phase.handshakeDone = 0) (hsess : t.sess = s.sess) (hctl : t.ctl = s.ctl)
    (hport : t.port = s.port ∨ s.sess = .closed) (hhist : t.hist = s.hist) (htxlen : t.txlen = s.txlen)
    (hrxlen : t.rxlen = s.rxlen) : t.Inv := by
  obtain ⟨-, hlengths, hctlFits, hsession, -, hsent⟩ := h
  refine ⟨hphase, ?_, ?_, ?_, hexchange, ?_⟩
  · rwa [State.LengthsFit, htxlen, hrxlen]
  · rw [ctlFits_iff hdone, hsess, hctl]
    exact (ctlFits_iff (hp ▸ rfl)).mp hctlFits
  · have hidle : s.phase.handshakeDone = 0 := hp ▸ rfl
    rcases hport with hport | hclosed
    · rwa [State.SessionFits, hsess, hhist, hport, hdone, ← hidle]
    · rw [State.SessionFits, hsess, hclosed]
      exact trivial
  · rwa [State.SentFits, hhist]

/-- A request is refused, or the first phase of its operation follows (R180). -/
theorem admitRequest_inv (q : Request) (h : s.Inv) (hp : s.phase = .idle) : (admitRequest q s).Inv := by
  have hkeeps := fun (t : State) => inv_of_idle (t := t) h hp
  rcases admit_cases q s with ⟨r, e⟩ | ⟨p, -, hs, e⟩ | ⟨-, hs, e⟩ | ⟨-, e⟩ | ⟨hs, op, b, d, e, hq⟩ <;> rw [e]
  · exact hkeeps _ rfl trivial rfl rfl rfl (.inl rfl) rfl rfl rfl
  · exact hkeeps _ ⟨rfl, hs⟩ trivial rfl rfl rfl (.inr hs) rfl rfl rfl
  · exact hkeeps _ ⟨rfl, hs⟩ trivial rfl rfl rfl (.inl rfl) rfl rfl rfl
  · exact hkeeps _ rfl trivial rfl rfl rfl (.inl rfl) rfl rfl rfl
  · have hop : op.isCommand = true := by
      rcases hq with ⟨rfl, -⟩ | ⟨rfl, -⟩ | ⟨n, rfl, -⟩ | ⟨n, rfl, -⟩ | ⟨n, v, rfl, -⟩ | ⟨n, v, rfl, -⟩ <;> rfl
    exact hkeeps _ ⟨hop, hs⟩ trivial rfl rfl rfl (.inl rfl) rfl rfl rfl

theorem post_inv (q : Request) (h : s.Inv) : (post q s).Inv := by
  unfold post
  split
  · exact admitRequest_inv q h ‹_›
  · exact h

theorem callOp_inv (q : Request) (h : s.Inv) : (callOp q s).Inv := by
  unfold callOp
  split
  · exact ticks_inv _ (post_inv q h)
  · exact post_inv q h

theorem supply_inv (q : Request) (h : s.Inv) : (supply q s).Inv := by
  cases q <;> exact h

/-- A whole response is read as its header, which goes on, and then its tail. -/
theorem decodeResponseStep_reads {stx len b : Byte} {rest : List Byte} (mid next : Phase) (x : Exchange) (s : State)
    (hrest : rest.length = len.toNat + 1) :
    let u := takeHeader [stx, len] mid x (endRead 2 [stx, len] s)
    u.phase = mid ∧ (b :: rest).length = tailCount u.rxbuf[1]
      ∧ decodeResponseStep stx len b rest mid next x s =
        takeTail (tailCount u.rxbuf[1]) (b :: rest) next x (endRead (tailCount u.rxbuf[1]) (b :: rest) u) := by
  intro u
  have hu : u = { endRead 2 [stx, len] s with
      statusV := false, rxbuf := overlay s.rxbuf 0 [stx, len], rxlen := 2, phase := mid } :=
    takeHeader_full _ _ _ _ rfl
  have hlen : u.rxbuf[1] = len := by
    rw [hu]
    exact overlay_get_inside s.rxbuf 0 [stx, len] 1 (by simp) (by simp)
  have hcount : (b :: rest).length = tailCount len := by rw [tailCount_eq, List.length_cons, hrest]
  refine ⟨by rw [hu], hlen ▸ hcount, ?_⟩
  simp only [decodeResponseStep, hlen, ← hcount, List.take_length, List.drop_length]
  rfl

/-- Reading a whole response keeps the invariant as its two reads do. -/
theorem execResp_inv {stx len b : Byte} {rest : List Byte} (h : s.Inv) (hrest : rest.length = len.toNat + 1)
    (he : execResp stx len b rest s = .next t) : t.Inv := by
  unfold execResp at he
  split at he
  next hp =>
    obtain ⟨hmid, hcount, e⟩ := decodeResponseStep_reads (stx := stx) (b := b) .cRxt .cChk .command s hrest
    cases he
    exact e ▸ commandTail_inv (commandHeader_inv h hp (by simp)) hmid hcount.le
  next =>
    split at he
    next hp =>
      obtain ⟨hmid, hcount, e⟩ := decodeResponseStep_reads (stx := stx) (b := b) .dRxt .dChk .data s hrest
      cases he
      exact e ▸ dataTail_inv (dataHeader_inv h hp (by simp)) hmid hcount.le
    next => cases he

/-- The data frame's item is its two phases. -/
theorem execData_inv (h : s.Inv) (hp : s.phase = .dEnc) (he : execData s.data s = .next t) : t.Inv := by
  have hticks : execData s.data s = .next (tick (tick s)) := by
    rw [execData, if_pos hp]
    simp only [tick, hp, encodeStep_phase]
  obtain rfl := Host.Outcome.next.inj (hticks.symm.trans he)
  exact tick_inv (tick_inv h)

theorem ok_of_ite {c : Prop} [Decidable c] {i j : Instr} {r : Except DecodeError Instr}
    (h : (if c then .ok i else r) = .ok j) : c ∧ i = j ∨ r = .ok j := by
  split at h
  · exact .inl ⟨‹c›, Except.ok.inj h⟩
  · exact .inr h

/-- A listed status byte is an instruction that judges that byte (R150). -/
theorem exec_status {b : Byte} {i : Instr} (h : decode .status [b] = .ok i) : exec i s = judgeAtCheck b s := by
  change statusOf b = .ok i at h
  unfold statusOf at h
  iterate 13
    rcases ok_of_ite h with ⟨rfl, rfl⟩ | h
    · rfl
  cases h

theorem runItem_inv (h : s.Inv) (he : runItem s = .next t) : t.Inv := by
  rcases runItem_cases s with e | ⟨hp, e⟩ | ⟨-, stx, len, b, rest, r, hrest, -, e⟩ | ⟨hp, i, hi, e⟩
  · cases e.symm.trans he
    exact tick_inv h
  · exact execData_inv h hp (e.symm.trans he)
  · exact execResp_inv (s := { s with rx := r }) h hrest (e.symm.trans he)
  · have hjudge : judgeAtCheck s.status s = .next t := (exec_status hi).symm.trans (e.symm.trans he)
    rcases hp with hp | hp <;> rw [judgeAtCheck, hp] at hjudge <;> cases hjudge
    · exact judge_command_inv h hp
    · exact judge_data_inv h hp

/-- Settles O50: every step is one of the moves of `step_cases`, and each of them keeps the invariant. -/
theorem stepKeepsInvariant : Obligations.StepKeepsInvariant := by
  intro s t h hstep
  obtain ⟨xs, hmove⟩ := step_cases s t hstep
  have hrest : State.Inv { s with inputs := xs } := h
  rcases hmove with rfl | hitem | ⟨q, rfl⟩ | ⟨q, rfl⟩ | ⟨q, rfl⟩ | ⟨sent, rfl⟩
  · exact tick_inv hrest
  · exact runItem_inv hrest hitem
  · exact callOp_inv q (supply_inv q hrest)
  · exact callOp_inv q hrest
  · exact post_inv q (supply_inv q hrest)
  · exact resetMeetsInvariant

end Sys2Proof.Machine
end

section
/-! 30_encoding.md: the formats byte by byte (R85, R90, R91), and the decoder and the encoder as inverses of each other
(R81 to R98): a frame that passes the decoder's checks is rebuilt from the parts that the decoder keeps of it. -/

namespace Sys2Proof.Machine

/-! ## The bytes of a block's addresses -/

/-- The address bytes of a block (R85): eight high bits of the index, six low bits above the two that tell END from
START, and a low byte of zeros or of ones. -/
theorem addressBytes_eq (n : Nat) :
    addressBytes n = [BitVec.ofNat 8 (n / 64), BitVec.ofNat 8 (n % 64 * 4), 0x00#8,
      BitVec.ofNat 8 (n / 64), BitVec.ofNat 8 (n % 64 * 4 + 3), 0xFF#8] := by
  simp only [addressBytes, be24_eq, List.cons_append, List.nil_append, List.cons.injEq, and_true]
  refine ⟨?_, ?_, ?_, ?_, ?_, ?_⟩
  all_goals
    apply BitVec.eq_of_toNat_eq
    simp only [BitVec.extractLsb'_toNat, BitVec.toNat_ofNat, startAddress, endAddress, Config.blockSize,
      Config.addrBits, Nat.shiftRight_eq_div_pow, Nat.reducePow]
    omega

theorem startAddress_toNat (n : Nat) (hn : n ≤ 16383) : (startAddress n).toNat = n * 1024 := by
  simp only [startAddress, BitVec.toNat_ofNat, Config.blockSize, Config.addrBits]
  omega

theorem endAddress_toNat (n : Nat) (hn : n ≤ 16383) : (endAddress n).toNat = n * 1024 + 1023 := by
  simp only [endAddress, BitVec.toNat_ofNat, Config.blockSize, Config.addrBits]
  omega

/-- Settles O3: the addresses fit 24 bits, and their bytes are those of `addressBytes_eq`. -/
theorem addressBytesFromBlockIndex : Obligations.AddressBytesFromBlockIndex :=
  fun n hn => ⟨startAddress_toNat n hn, endAddress_toNat n hn, rfl, addressBytes_eq n⟩

/-! ## The bytes of the frames -/

/-- The sum of R8 is, mod 256, the sum of the bytes as bytes. -/
theorem ofNat_byteSum (l : List Byte) : BitVec.ofNat 8 (byteSum l) = l.sum := by
  induction l with
  | nil => rfl
  | cons b l ih => rw [byteSum, BitVec.ofNat_add, ih, BitVec.ofNat_toNat, BitVec.setWidth_eq, List.sum_cons]

/-- The checksum in the arithmetic of bytes: the inverse of the sum that wraps (R121, R122). -/
theorem crc_eq_neg_sum (buf : List Byte) (n : Nat) : crc buf n = -((buf.drop 1).take (n + 1)).sum := by
  rw [crc, Int.zero_sub, BitVec.ofInt_neg, BitVec.ofInt_natCast, ofNat_byteSum]

/-- Settles O5: with the address bytes in place every byte of the frame is given but the checksum, which is the inverse
of the sum of LEN and the seven bytes behind it. -/
theorem blockFramesByteByByte : Obligations.BlockFramesByteByByte := by
  intro c n _ s2 s1
  have hbytes : addressBytes n = [s2, s1, 0x00#8, s2, s1 + 3#8, 0xFF#8] := by
    rw [addressBytes_eq, BitVec.ofNat_add]
  have hcrc : crc [0x01#8, 0x07#8, c, s2, s1, 0x00#8, s2, s1 + 3#8, 0xFF#8] 7 =
      0xF7#8 - c - 2#8 * s2 - 2#8 * s1 := by
    rw [crc_eq_neg_sum]
    simp only [List.drop_succ_cons, List.drop_zero, List.take_succ_cons, List.take_zero, List.sum_cons, List.sum_nil]
    grind
  rw [blockFrame, hbytes, ← hcrc]
  rfl

/-- Settles O6: the payload stands behind the two header bytes, and LEN adds nothing to its sum. -/
theorem dataFrameByteByByte : Obligations.DataFrameByteByByte := by
  intro p
  refine ⟨rfl, rfl, ?payload, ?crc, ?etx, encodeData_length p⟩
  case payload =>
    intro i hi
    simp [encodeData, byteAt, List.getElem?_append_left, hi]
  case crc =>
    have hspan : ((Config.stxData :: Config.lenData :: p.toList).drop 1).take 257 = Config.lenData :: p.toList :=
      List.take_of_length_le (by simp)
    have hcrc : crc (Config.stxData :: Config.lenData :: p.toList) 256 =
        BitVec.ofInt 8 (0 - (byteSum p.toList : Int)) := by
      rw [crc, hspan, byteSum]
      simp
    rw [← hcrc]
    simp [encodeData, byteAt]
  case etx => simp [encodeData, byteAt]

/-! ## Decoding what is encoded -/

/-- A block-scoped command whose command byte selects `command` decodes to it with the block (R88, R96). -/
theorem decode_blockFrame {c : Byte} {command : Nat → Instr} (n : Nat) (hn : n ≤ Config.maxBlock)
    (hc : ∀ a ≠ [], commandOf c a = (blockOf a).map command) : decode .request (blockFrame c n) = .ok (command n) := by
  rw [blockFrame, decodeRequest_encodeCommand _ _ (.inr (addressBytes_length n)), hc (addressBytes n) nofun,
    blockOf_addressBytes n hn]
  rfl

theorem commandOf_blockErase (a : List Byte) (ha : a ≠ []) :
    commandOf Config.cmdBlockErase a = (blockOf a).map .blockErase := by
  rw [commandOf, if_neg ha, if_pos rfl]

theorem commandOf_blankCheck (a : List Byte) (ha : a ≠ []) :
    commandOf Config.cmdBlankCheck a = (blockOf a).map .blankCheck := by
  rw [commandOf, if_neg ha, if_neg (by decide), if_pos rfl]

theorem commandOf_program (a : List Byte) (ha : a ≠ []) :
    commandOf Config.cmdProgram a = (blockOf a).map .program := by
  rw [commandOf, if_neg ha, if_neg (by decide), if_neg (by decide), if_pos rfl]

theorem commandOf_verify (a : List Byte) (ha : a ≠ []) :
    commandOf Config.cmdVerify a = (blockOf a).map .verify := by
  rw [commandOf, if_neg ha, if_neg (by decide), if_neg (by decide), if_neg (by decide), if_pos rfl]

/-- Settles O8: each command frame parses back and its command byte selects its own command; the data frame gives its
payload back; a well-formed response has the count that its LEN gives; a single byte is looked up in its table. -/
theorem decodeInvertsEncode : Obligations.DecodeInvertsEncode := by
  intro i hi
  cases i with
  | cmdReset | chipErase => exact decodeRequest_encodeCommand _ [] (.inl rfl)
  | blockErase n => exact decode_blockFrame n (of_decide_eq_true hi) commandOf_blockErase
  | blankCheck n => exact decode_blockFrame n (of_decide_eq_true hi) commandOf_blankCheck
  | program n => exact decode_blockFrame n (of_decide_eq_true hi) commandOf_program
  | verify n => exact decode_blockFrame n (of_decide_eq_true hi) commandOf_verify
  | data p => exact decodeData_encodeData p
  | resp stx len status rest => exact if_pos (of_decide_eq_true hi)
  | sync | status00 | status04 | status05 | status06 | status07 | status0F | status10 | status15 | status1A | status1B
  | status1C | status20 | statusFF => rfl

/-! ## Encoding what is decoded -/

/-- A check of the decoder that is passed: its error did not happen and the rest accepts. -/
theorem passed_of_ite {α : Type} {c : Prop} [Decidable c] {e : DecodeError} {r : Except DecodeError α} {v : α}
    (h : (if c then .error e else r) = .ok v) : ¬c ∧ r = .ok v := by
  split at h
  · cases h
  · exact ⟨‹¬c›, h⟩

/-- What is behind the summed bytes of a frame with the right checksum and end is given by them (R81, R86, R87). -/
theorem eq_take_append_crc_etx {f : List Byte} {n : Nat} (hcount : f.length = n + 4)
    (hcrc : byteAt f (n + 2) = crc f n) (hend : byteAt f (n + 3) = Config.etx) :
    f = f.take (n + 2) ++ [crc (f.take (n + 2)) n, Config.etx] := by
  have hlast : f.drop (n + 2) = [byteAt f (n + 2), byteAt f (n + 3)] := by
    rw [List.drop_eq_getElem_cons (by omega), List.drop_eq_getElem_cons (by omega), List.drop_of_length_le (by omega)]
    simp [byteAt, hcount]
  have hsplit : f = f.take (n + 2) ++ [byteAt f (n + 2), byteAt f (n + 3)] := by
    rw [← hlast, List.take_append_drop]
  have hsame : crc f n = crc (f.take (n + 2)) n := by
    conv_lhs => rw [hsplit]
    exact crc_append _ _ _ (by simp; omega)
  rw [← hsame, ← hcrc, ← hend, ← hsplit]

/-- The byte at an offset is the first of the bytes from there on. -/
theorem take_drop_succ {f : List Byte} {i : Nat} (k : Nat) (hi : i < f.length) :
    (f.drop i).take (k + 1) = byteAt f i :: (f.drop (i + 1)).take k := by
  rw [List.drop_eq_getElem_cons hi, List.take_succ_cons, byteAt, List.getElem?_eq_getElem hi, Option.getD_some]

/-- A frame from its header on (R81). -/
theorem take_add_two {f : List Byte} (n : Nat) (hf : 2 ≤ f.length) :
    f.take (n + 2) = byteAt f 0 :: byteAt f 1 :: (f.drop 2).take n := by
  have h := take_drop_succ (f := f) (n + 1) (i := 0) (by omega)
  rwa [take_drop_succ n (by omega), List.drop_zero] at h

/-- A command frame that parses is the frame of its command byte and its address bytes (R141). -/
theorem eq_encodeCommand_of_parseCommand {f a : List Byte} {c : Byte} (h : parseCommand f = .ok (c, a)) :
    f = encodeCommand c a := by
  unfold parseCommand at h
  obtain ⟨hlong, h⟩ := passed_of_ite h
  obtain ⟨hstart, h⟩ := passed_of_ite h
  obtain ⟨-, h⟩ := passed_of_ite h
  obtain ⟨hcount, h⟩ := passed_of_ite h
  obtain ⟨hcrc, h⟩ := passed_of_ite h
  obtain ⟨hend, h⟩ := passed_of_ite h
  obtain ⟨rfl, rfl⟩ := Prod.mk.inj (Except.ok.inj h)
  rw [not_not] at hstart hcount hcrc hend
  obtain ⟨k, hk⟩ : ∃ k, (byteAt f 1).toNat = k + 1 := ⟨(byteAt f 1).toNat - 1, by omega⟩
  have hlen : byteAt f 1 = BitVec.ofNat 8 (1 + k) := by rw [Nat.add_comm, ← hk, BitVec.ofNat_toNat, BitVec.setWidth_eq]
  rw [hk] at hcount hcrc hend ⊢
  have haddress : ((f.drop 3).take k).length = k := by rw [List.length_take, List.length_drop]; omega
  have hbuf : f.take (k + 1 + 2) = [Config.stxCmd, BitVec.ofNat 8 (1 + k), byteAt f 2] ++ (f.drop 3).take k := by
    rw [take_add_two _ (by omega), take_drop_succ _ (by omega), hstart, hlen]
    rfl
  calc f = f.take (k + 1 + 2) ++ [crc (f.take (k + 1 + 2)) (k + 1), Config.etx] :=
        eq_take_append_crc_etx hcount hcrc hend
    _ = encodeCommand (byteAt f 2) ((f.drop 3).take k) := by
        rw [hbuf, Nat.add_comm k 1, encodeCommand, haddress]

/-- Address bytes that give a block are the block's, and its index has 14 bits (R85). -/
theorem eq_addressBytes_of_blockOf {a : List Byte} {n : Nat} (h : blockOf a = .ok n) :
    a = addressBytes n ∧ n ≤ Config.maxBlock := by
  simp only [blockOf] at h
  split at h
  case isFalse => cases h
  case isTrue ha =>
    obtain rfl := Except.ok.inj h
    refine ⟨ha, ?_⟩
    have hlength : a.length = 6 := by rw [ha, addressBytes_length]
    rw [unbe_take a (by omega), unbe24]
    simp only [Config.maxBlock, Config.blockSize]
    omega

/-- What address bytes select is a command on the block that they are the bytes of. -/
theorem block_of_map_ok {a : List Byte} {command : Nat → Instr} {i : Instr}
    (h : (blockOf a).map command = .ok i) : ∃ n ≤ Config.maxBlock, a = addressBytes n ∧ command n = i := by
  cases hb : blockOf a with
  | error e => rw [hb] at h; cases h
  | ok n =>
    obtain ⟨ha, hn⟩ := eq_addressBytes_of_blockOf hb
    rw [hb] at h
    exact ⟨n, hn, ha, Except.ok.inj h⟩

/-- The command that a command byte and address bytes select has their frame, and its block is in range (R88). -/
theorem encode_of_commandOf {c : Byte} {a : List Byte} {i : Instr} (h : commandOf c a = .ok i) :
    encode i = encodeCommand c a ∧ i.wellFormed = true := by
  unfold commandOf at h
  split at h
  case isTrue ha =>
    subst ha
    iterate 2
      rcases ok_of_ite h with ⟨rfl, rfl⟩ | h
      · exact ⟨rfl, rfl⟩
    cases h
  case isFalse =>
    iterate 4
      rcases ite_eq_iff.mp h with ⟨rfl, h⟩ | ⟨-, h⟩
      · obtain ⟨n, hn, rfl, rfl⟩ := block_of_map_ok h
        exact ⟨rfl, decide_eq_true hn⟩
    cases h

theorem encode_of_decodeRequest {f : List Byte} {i : Instr} (h : decodeRequest f = .ok i) :
    encode i = f ∧ i.wellFormed = true := by
  rcases ok_of_ite h with ⟨rfl, rfl⟩ | h
  · exact ⟨rfl, rfl⟩
  · split at h
    next c a hparse => exact eq_encodeCommand_of_parseCommand hparse ▸ encode_of_commandOf h
    next => cases h

theorem toList_of_payloadOf {l : List Byte} {p : Payload} (h : payloadOf l = some p) : p.toList = l := by
  unfold payloadOf at h
  split at h
  · cases h; rfl
  · cases h

/-- A data frame that decodes is the frame of the payload that it gives (R91). -/
theorem encode_of_decodeData {f : List Byte} {i : Instr} (h : decodeData f = .ok i) :
    ∃ p, i = .data p ∧ encodeData p = f := by
  unfold decodeData at h
  obtain ⟨hstart, h⟩ := passed_of_ite h
  obtain ⟨hlen, h⟩ := passed_of_ite h
  obtain ⟨hcount, h⟩ := passed_of_ite h
  obtain ⟨hcrc, h⟩ := passed_of_ite h
  obtain ⟨hend, h⟩ := passed_of_ite h
  rw [not_not] at hstart hlen hcount hcrc hend
  split at h
  case h_2 => cases h
  case h_1 p hp =>
    have hbuf : f.take (Config.dataLen + 2) = [Config.stxData, Config.lenData] ++ p.toList := by
      rw [take_add_two _ (by rw [hcount]; decide), hstart, hlen, toList_of_payloadOf hp]
      rfl
    refine ⟨p, (Except.ok.inj h).symm, ?_⟩
    rw [encodeData, ← hbuf, ← eq_take_append_crc_etx hcount hcrc hend]

theorem encode_of_decodeResponse {f : List Byte} {i : Instr} (h : decodeResponse f = .ok i) :
    encode i = f ∧ i.position = .response ∧ i.wellFormed = true := by
  unfold decodeResponse at h
  split at h
  · rcases ok_of_ite h with ⟨hcount, rfl⟩ | h
    · exact ⟨rfl, rfl, decide_eq_true hcount⟩
    · cases h
  · cases h

/-- The listed status that a byte is has that byte for its encoding (R95, R150). -/
theorem encode_of_statusOf {b : Byte} {i : Instr} (h : statusOf b = .ok i) :
    encode i = [b] ∧ i.position = .status ∧ i.wellFormed = true := by
  unfold statusOf at h
  iterate 13
    rcases ok_of_ite h with ⟨rfl, rfl⟩ | h
    · exact ⟨rfl, rfl, rfl⟩
  cases h

theorem encode_of_decodeStatus {f : List Byte} {i : Instr} (h : decodeStatus f = .ok i) :
    encode i = f ∧ i.position = .status ∧ i.wellFormed = true := by
  unfold decodeStatus at h
  split at h
  · exact encode_of_statusOf h
  · cases h
  · cases h

/-- Settles O9: at each position, what the decoder accepts is rebuilt from what it keeps. -/
theorem encodeInvertsDecode : Obligations.EncodeInvertsDecode := by
  intro p f i h
  cases p with
  | request =>
    obtain ⟨hencode, hwf⟩ := encode_of_decodeRequest h
    exact ⟨hencode, decodeRequest_position f i h, hwf⟩
  | data =>
    obtain ⟨p, rfl, hencode⟩ := encode_of_decodeData h
    exact ⟨hencode, rfl, rfl⟩
  | response => exact encode_of_decodeResponse h
  | status => exact encode_of_decodeStatus h

/-- Settles O10: an accepted word is the encoding of its instruction, and the decoder is run on the refused ones. -/
theorem specWordsDecode : Obligations.SpecWordsDecode := by
  refine ⟨decodeInvertsEncode .cmdReset rfl, decodeInvertsEncode .chipErase rfl, decodeInvertsEncode (.blockErase 2) rfl,
    decodeInvertsEncode (.verify 16383) rfl, decodeInvertsEncode (.resp 0xAA 0x01 0x06 [0x00, 0x00]) rfl,
    decodeInvertsEncode .sync rfl, decodeInvertsEncode .status00 rfl, decodeInvertsEncode .status15 rfl,
    ?badCrc, ?unlistedStatus, ?noCommand⟩
  case badCrc => decide
  case unlistedStatus => decide
  case noCommand => decide

end Sys2Proof.Machine
end

section
/-! 40_crc.md: the checksum in its equivalent forms (R121, R122, R125), and what of a response matters. The checksum is
the inverse of a sum of bytes, so its forms are facts about that sum; a response is read into RXBUF and HIST whatever
its bytes, and no later phase of a command of one exchange looks there. -/

namespace Sys2Proof.Machine

/-! ## The sum and its accumulators -/

/-- The checksum as a number: what the sum lacks to the next multiple of 256 (R121). -/
theorem crc_toNat (buf : List Byte) (n : Nat) :
    (crc buf n).toNat = (256 - byteSum ((buf.drop 1).take (n + 1)) % 256) % 256 := by
  rw [crc_eq_neg_sum, ← ofNat_byteSum, BitVec.toNat_neg, BitVec.toNat_ofNat]

/-- The wrapping accumulator ends at the sum mod 256 (R122 a). -/
theorem foldl_add_mod (l : List Byte) (a : Nat) (ha : a < 256) :
    l.foldl (fun a b => (a + b.toNat) % 256) a = (a + byteSum l) % 256 := by
  induction l generalizing a with
  | nil => exact (Nat.mod_eq_of_lt ha).symm
  | cons b l ih =>
    rw [List.foldl_cons, ih _ (Nat.mod_lt _ (by decide)), Nat.mod_add_mod, Nat.add_assoc, byteSum]

/-- The subtracting accumulator takes the sum away (R122 d). -/
theorem foldl_sub_eq (l : List Byte) (a : Byte) : l.foldl (fun a b => a - b) a = a - l.sum := by
  induction l generalizing a with
  | nil => exact (BitVec.sub_zero a).symm
  | cons b l ih => rw [List.foldl_cons, ih, List.sum_cons, sub_sub]

/-- Inverting the bits of a byte and adding one is its inverse mod 256 (R122 b). -/
theorem xor_ones_add_one (a : Nat) (ha : a < 256) : ((a ^^^ 0xFF) + 1) % 256 = (256 - a) % 256 := by
  have hxor : a ^^^ 0xFF = 255 - a :=
    calc a ^^^ 0xFF = (BitVec.ofNat 8 a ^^^ BitVec.allOnes 8).toNat := by
          rw [BitVec.toNat_xor, BitVec.toNat_ofNat, Nat.mod_eq_of_lt ha, BitVec.toNat_allOnes]
      _ = (~~~BitVec.ofNat 8 a).toNat := by rw [BitVec.xor_allOnes]
      _ = 255 - a := by rw [BitVec.toNat_not, BitVec.toNat_ofNat, Nat.mod_eq_of_lt ha]
  omega

/-- Settles O1: each form is a fact about the sum of the span, of which the checksum is the inverse. -/
theorem checksumEquivalentForms : Obligations.ChecksumEquivalentForms := by
  intro buf n _ _ _ span acc
  have hacc : acc = byteSum span % 256 := by
    rw [show acc = (0 + byteSum span) % 256 from foldl_add_mod span 0 (by decide), Nat.zero_add]
  have hlt : acc < 256 := hacc ▸ Nat.mod_lt _ (by decide)
  have hcrc : (crc buf n).toNat = (256 - acc) % 256 := hacc ▸ crc_toNat buf n
  refine ⟨hcrc, ?twosComplement, fun c => ?zeroSum, ?subtracting⟩
  case twosComplement => rw [hcrc, xor_ones_add_one acc hlt]
  case zeroSum =>
    have hc := c.isLt
    rw [← BitVec.toNat_inj, hcrc]
    omega
  case subtracting => rw [foldl_sub_eq, crc_eq_neg_sum, zero_sub]

/-- With a count that spans the whole buffer, the checksum is the inverse of the sum of all bytes but the first. -/
theorem crc_cons (a : Byte) (s : List Byte) : crc (a :: s) (s.length - 1) = -s.sum := by
  rw [crc_eq_neg_sum, List.drop_succ_cons, List.drop_zero, List.take_of_length_le (by omega)]

/-- Settles O2: a sum does not depend on the order, and the start byte is not summed. -/
theorem checksumIgnoresOrderAndStart : Obligations.ChecksumIgnoresOrderAndStart := by
  intro a b s t hperm
  rw [crc_cons, crc_cons, hperm.sum_eq]

/-! ## Reading a whole response -/

variable {s t : State}

/-- The state after a whole response is read (R133, R136): LEN counts, the status byte is kept, and the other bytes are
in RXBUF and in the record of the two reads only. -/
def State.afterResponse (stx len b : Byte) (rest : List Byte) (next : Phase) (s : State) : State :=
  { s with
    statusV := true
    status := b
    rxbuf := overlay (overlay s.rxbuf 0 [stx, len]) 2 (b :: rest)
    rxlen := 2 + tailCount len
    phase := next
    hist := s.hist ++ [.rx 2 [stx, len]] ++ [.rx (tailCount len) (b :: rest)]
    timer := min Config.readTimeout (Config.freeTimeLeft (s.draws + 1))
    draws := s.draws + 2 }

/-- The header of a response is laid at the start of RXBUF, so LEN stands at offset 1 (R92). -/
theorem overlay_header_len (buf : Vector Byte 259) (stx len : Byte) : (overlay buf 0 [stx, len])[1] = len :=
  overlay_get_inside buf 0 [stx, len] 1 (by simp) (by simp)

theorem headerStep_bytes (stx len : Byte) (r : List RxItem) (mid : Phase) (x : Exchange)
    (hrx : s.rx = [stx, len].map .byte ++ r) :
    headerStep mid x s = takeHeader [stx, len] mid x (endRead 2 [stx, len] { s with rx := r }) := by
  rw [headerStep, show memRead Config.hdrRead s = _ from memRead_bytes [stx, len] r s hrx]
  rfl

theorem tailStep_bytes (v : List Byte) (r : List RxItem) (next : Phase) (x : Exchange)
    (hv : v.length = tailCount s.rxbuf[1]) (hrx : s.rx = v.map .byte ++ r) :
    tailStep next x s = takeTail v.length v next x (endRead v.length v { s with rx := r }) := by
  simp only [tailStep, ← hv, memRead_bytes v r s hrx]

section wholeResponse

variable {stx len b : Byte} {rest : List Byte} (hrest : rest.length = len.toNat + 1)
include hrest

theorem length_tail : (b :: rest).length = tailCount len := by
  rw [tailCount_eq, List.length_cons, hrest]

/-- The tail read behind a header read that went on. -/
theorem takeTail_takeHeader (mid next : Phase) (x : Exchange) (s : State) :
    takeTail (b :: rest).length (b :: rest) next x
      (endRead (b :: rest).length (b :: rest) (takeHeader [stx, len] mid x (endRead 2 [stx, len] s))) =
    s.afterResponse stx len b rest next := by
  obtain ⟨hlow, hhigh⟩ := tailCount_bounds len
  rw [takeHeader_full _ _ _ _ rfl, length_tail hrest,
    takeTail_full _ _ _ _ _ (length_tail hrest) (by omega) hhigh]
  simp only [endRead, length_tail hrest, lt_irrefl, if_false]
  rfl

/-- RESP reads its response whole (R133). -/
theorem decodeResponseStep_eq (mid next : Phase) (x : Exchange) (s : State) :
    decodeResponseStep stx len b rest mid next x s = s.afterResponse stx len b rest next := by
  rw [← takeTail_takeHeader hrest mid next x s]
  simp only [decodeResponseStep, ← length_tail (b := b) hrest, List.take_length, List.drop_length]
  rfl

/-- The two reads of a response that lies at the front of the stream read it whole (R133, R135). -/
theorem tailStep_headerStep (mid next : Phase) (x : Exchange) (s : State) (r : List RxItem)
    (hrx : s.rx = (stx :: len :: b :: rest).map .byte ++ r) :
    tailStep next x (headerStep mid x s) = State.afterResponse stx len b rest next { s with rx := r } := by
  rw [headerStep_bytes stx len ((b :: rest).map .byte ++ r) mid x hrx, takeHeader_full _ _ _ _ rfl,
    tailStep_bytes (b :: rest) r next x ((length_tail hrest).trans (by rw [overlay_header_len])) rfl,
    ← takeTail_takeHeader hrest mid next x, takeHeader_full _ _ _ _ rfl]
  rfl

/-- RESP runs at the header phases only, and each has its own check phase (R189). -/
theorem exec_resp_afterResponse (h : exec (.resp stx len b rest) s = .next t) :
    t = s.afterResponse stx len b rest (if s.phase = .cRxh then .cChk else .dChk) := by
  change execResp stx len b rest s = .next t at h
  unfold execResp at h
  split at h
  next hp =>
    cases h
    rw [if_pos hp, decodeResponseStep_eq hrest]
  next hp =>
    split at h
    · cases h
      rw [if_neg hp, decodeResponseStep_eq hrest]
    · cases h

/-- RXBUF holds LEN and the status of a response at their offsets (R92). -/
theorem afterResponse_rxbuf (next : Phase) (s : State) :
    (s.afterResponse stx len b rest next).rxbuf[1] = len ∧ (s.afterResponse stx len b rest next).rxbuf[2] = b := by
  have hfits : 2 + (b :: rest).length ≤ 259 := by
    obtain ⟨-, hhigh⟩ := tailCount_bounds len
    rw [length_tail hrest]
    omega
  exact ⟨(overlay_get_before _ 2 (b :: rest) 1 (by decide) (by decide) hfits).trans (overlay_header_len _ _ _),
    overlay_get_inside _ 2 (b :: rest) 0 (by simp) hfits⟩

end wholeResponse

/-- Settles O47: the state after a response depends on its other bytes in RXBUF and HIST only, and RXBUF holds LEN and
the status at their offsets. -/
theorem onlyLenAndStatusMatter : Obligations.OnlyLenAndStatusMatter := by
  intro s t t' stx stx' len b rest rest' hrest hrest' ht ht'
  obtain rfl := exec_resp_afterResponse hrest ht
  obtain rfl := exec_resp_afterResponse hrest' ht'
  obtain ⟨hlen, hstatus⟩ := afterResponse_rxbuf (stx := stx) (b := b) hrest _ s
  obtain ⟨hlen', hstatus'⟩ := afterResponse_rxbuf (stx := stx') (b := b) hrest' _ s
  exact ⟨rfl, hlen'.trans hlen.symm, hstatus'.trans hstatus.symm⟩

/-! ## A command of one exchange -/

/-- The two states differ at most in RXBUF, in HIST and in what is still to be received. -/
def State.SameButReads (s t : State) : Prop :=
  ∃ buf hist rx, t = { s with rxbuf := buf, hist := hist, rx := rx }

theorem State.SameButReads.phase (h : s.SameButReads t) : t.phase = s.phase := by
  obtain ⟨buf, hist, rx, rfl⟩ := h
  rfl

theorem State.SameButReads.op (h : s.SameButReads t) : t.op = s.op := by
  obtain ⟨buf, hist, rx, rfl⟩ := h
  rfl

theorem State.SameButReads.sess (h : s.SameButReads t) : t.sess = s.sess := by
  obtain ⟨buf, hist, rx, rfl⟩ := h
  rfl

/-- What is still to be received may be anything. -/
theorem State.SameButReads.withRx (h : s.SameButReads t) (rx rx' : List RxItem) :
    State.SameButReads { s with rx := rx } { t with rx := rx' } := by
  obtain ⟨buf, hist, _, rfl⟩ := h
  exact ⟨buf, hist, rx', rfl⟩

theorem finish_same (r : Result) (h : s.SameButReads t) : (finish r s).SameButReads (finish r t) := by
  obtain ⟨buf, hist, rx, rfl⟩ := h
  exact ⟨buf, hist, rx, rfl⟩

theorem raiseFailure_same (f : Failure) (x : Option Exchange) (h : s.SameButReads t) :
    (raiseFailure f x s).SameButReads (raiseFailure f x t) := by
  obtain ⟨buf, hist, rx, rfl⟩ := h
  refine ⟨buf, hist, rx, ?_⟩
  by_cases hop : s.op = .openPort <;> simp [raiseFailure, finish, hop]

theorem encodeStep_same (f : List Byte) (next : Phase) (h : s.SameButReads t) :
    (encodeStep f next s).SameButReads (encodeStep f next t) := by
  obtain ⟨buf, hist, rx, rfl⟩ := h
  exact ⟨buf, hist, rx, rfl⟩

/-- The answer to a write does not depend on what was read. -/
theorem memWrite_same (v : List Byte) (h : s.SameButReads t) :
    ∃ ok u u', memWrite v s = (ok, u) ∧ memWrite v t = (ok, u') ∧ u.SameButReads u' := by
  obtain ⟨buf, hist, rx, rfl⟩ := h
  have hanswer : writeAnswer { s with rxbuf := buf, hist := hist, rx := rx } =
      ((writeAnswer s).1, { (writeAnswer s).2 with rxbuf := buf, hist := hist, rx := rx }) := by
    cases hw : s.writes <;> simp [writeAnswer, hw]
  rw [memWrite, memWrite, hanswer]
  rcases writeAnswer s with ⟨ok | k, u⟩ <;> exact ⟨_, _, _, rfl, rfl, _, _, _, rfl⟩

theorem writeStep_same (next : Phase) (x : Exchange) (h : s.SameButReads t) :
    (writeStep next x s).SameButReads (writeStep next x t) := by
  have hframe : t.txFrame = s.txFrame := by
    obtain ⟨buf, hist, rx, rfl⟩ := h
    rfl
  obtain ⟨ok, u, u', hs, ht, hsame⟩ := memWrite_same s.txFrame h
  rw [writeStep, writeStep, hframe, hs, ht]
  cases ok with
  | true =>
    obtain ⟨buf, hist, rx, rfl⟩ := hsame
    exact ⟨buf, hist, rx, rfl⟩
  | false => exact raiseFailure_same _ _ hsame

theorem same_ite {c : Prop} [Decidable c] {s' t' : State} (h : s.SameButReads t) (h' : s'.SameButReads t') :
    (if c then s else s').SameButReads (if c then t else t') := by
  by_cases hc : c
  · rwa [if_pos hc, if_pos hc]
  · rwa [if_neg hc, if_neg hc]

/-- A status is judged without a look at what was read (R152, R182). -/
theorem judge_same (b : Byte) (h : s.SameButReads t) : (judge b s).SameButReads (judge b t) := by
  have hfinish := fun r => finish_same r h
  have hfail := fun f x => raiseFailure_same f x h
  obtain ⟨buf, hist, rx, rfl⟩ := h
  exact same_ite (same_ite (hfinish _) (hfail _ _))
    (same_ite (hfinish _) (same_ite (same_ite ⟨buf, hist, rx, rfl⟩ (hfinish _)) (hfail _ _)))

theorem afterResponse_same (stx stx' len b : Byte) (rest rest' : List Byte) (next : Phase) (h : s.SameButReads t) :
    (s.afterResponse stx len b rest next).SameButReads (t.afterResponse stx' len b rest' next) := by
  obtain ⟨buf, hist, rx, rfl⟩ := h
  exact ⟨_, _, rx, rfl⟩

/-- In a command of one exchange the check ends the operation (R189). -/
theorem judge_idle (b : Byte) (hp : s.phase = .cChk) (hop : s.op.twoPhase = false) : (judge b s).phase = .idle := by
  unfold judge
  rw [if_neg (by simp [hp]), hop]
  split
  · rfl
  · split
    · rfl
    · exact raiseFailure_phase ..

/-- The state after the first two phases of a command: its frame is built and written (R181). -/
def State.commandSent (s : State) : State :=
  writeStep .cRxh .command (encodeStep (commandFrame s.op s.blk) .cTx s)

theorem commandSent_same (h : s.SameButReads t) : s.commandSent.SameButReads t.commandSent := by
  have hframe : commandFrame t.op t.blk = commandFrame s.op s.blk := by
    obtain ⟨buf, hist, rx, rfl⟩ := h
    rfl
  rw [State.commandSent, State.commandSent, hframe]
  exact writeStep_same _ _ (encodeStep_same _ _ h)

/-- The write of the frame fails, or the header read follows with the stream and the operation as they were. -/
theorem commandSent_cases (s : State) :
    s.commandSent.phase = .idle
      ∨ s.commandSent.phase = .cRxh ∧ s.commandSent.rx = s.rx ∧ s.commandSent.op = s.op := by
  unfold State.commandSent
  rcases writeStep_cases .cRxh .command (encodeStep (commandFrame s.op s.blk) .cTx s) with ⟨w, d, e⟩ | ⟨w, d, k, e⟩ <;>
    rw [e]
  · exact .inr ⟨rfl, rfl, rfl⟩
  · exact .inl (raiseFailure_phase ..)

section exchange

variable {stx stx' len b : Byte} {rest rest' : List Byte} {r : List RxItem} (hrest : rest.length = len.toNat + 1)
  (hs : s.rx = (stx :: len :: b :: rest).map .byte ++ r)
include hrest hs

/-- From the header read on, a command of one exchange reads its response and judges the status. -/
theorem ticks_response (hp : s.phase = .cRxh) (hop : s.op.twoPhase = false) :
    ticks 8 s = judge b (State.afterResponse stx len b rest .cChk { s with rx := r }) := by
  have hread : ticks 2 s = State.afterResponse stx len b rest .cChk { s with rx := r } := by
    have hheader : tick s = headerStep .cRxt .command s := by simp only [tick, hp]
    have htail : (headerStep .cRxt .command s).phase = .cRxt := by
      rw [headerStep_bytes stx len ((b :: rest).map .byte ++ r) _ _ hs, takeHeader_full _ _ _ _ rfl]
    rw [← tailStep_headerStep hrest .cRxt .cChk .command s r hs, ticks, ticks, ticks, hheader]
    simp only [tick, htail]
  rw [ticks_add 2 6, hread]
  exact ticks_idle 5 _ (judge_idle b rfl hop)

/-- A command of one exchange whose response is there ends at the write of its frame or by the judgement of its status
(R181, R189). -/
theorem ticks_exchange (hp : s.phase = .cEnc) (hop : s.op.twoPhase = false) :
    ticks 10 s = if s.commandSent.phase = .idle then s.commandSent
      else judge b (State.afterResponse stx len b rest .cChk { s.commandSent with rx := r }) := by
  have hsent : ticks 2 s = s.commandSent := by
    rw [ticks, ticks, ticks, show tick s = encodeStep (commandFrame s.op s.blk) .cTx s by simp only [tick, hp]]
    rfl
  rw [ticks_add 2 8, hsent]
  rcases commandSent_cases s with hidle | ⟨hrxh, hrx, hsame⟩
  · rw [if_pos hidle, ticks_idle _ _ hidle]
  · rw [if_neg (by simp [hrxh]), ticks_response hrest (hrx.trans hs) hrxh (hsame ▸ hop)]

variable (hrest' : rest'.length = len.toNat + 1) (ht : t.rx = (stx' :: len :: b :: rest').map .byte ++ r)
  (h : s.SameButReads t)
include hrest' ht h

/-- A whole exchange goes the same way with two responses that agree in LEN and in the status. -/
theorem ticks_exchange_same (hp : s.phase = .cEnc) (hop : s.op.twoPhase = false) :
    (ticks 10 s).SameButReads (ticks 10 t) := by
  have hsent := commandSent_same h
  rw [ticks_exchange hrest hs hp hop, ticks_exchange hrest' ht (h.phase.trans hp) (h.op ▸ hop), hsent.phase]
  exact same_ite hsent (judge_same b (afterResponse_same _ _ _ _ _ _ _ (hsent.withRx r r)))

end exchange

/-! ## Its admission -/

theorem startCommand_same (op : Op) (h : s.SameButReads t) : (startCommand op s).SameButReads (startCommand op t) := by
  obtain ⟨buf, hist, rx, rfl⟩ := h
  exact ⟨buf, hist, rx, rfl⟩

theorem admitPlain_same (op : Op) (h : s.SameButReads t) : (admitPlain op s).SameButReads (admitPlain op t) := by
  rw [admitPlain, admitPlain, h.sess]
  cases s.sess with
  | closed | opened | failed => exact finish_same _ h
  | synced => exact startCommand_same op h

theorem admitBlock_same (op : Op) (n : Nat) (h : s.SameButReads t) :
    (admitBlock op n s).SameButReads (admitBlock op n t) := by
  rw [admitBlock, admitBlock, h.sess]
  cases s.sess with
  | closed | opened | failed => exact finish_same _ h
  | synced =>
    refine same_ite (finish_same _ h) (startCommand_same op ?_)
    obtain ⟨buf, hist, rx, rfl⟩ := h
    exact ⟨buf, hist, rx, rfl⟩

section admission

variable {q : Request} (hcommand : q.op.isCommand = true) (hone : q.op.twoPhase = false)
include hcommand

/-- A command is refused, or admitted to its first phase with the stream as it was (R180). -/
theorem admitRequest_command (s : State) :
    (admitRequest q s).phase = .idle
      ∨ (admitRequest q s).phase = .cEnc ∧ (admitRequest q s).rx = s.rx ∧ (admitRequest q s).op = q.op := by
  rcases admit_cases q s with ⟨r, e⟩ | ⟨p, rfl, -⟩ | ⟨rfl, -⟩ | ⟨rfl, -⟩ | ⟨-, op, b, d, e, hq⟩
  · exact .inl (e ▸ rfl)
  · cases hcommand
  · cases hcommand
  · cases hcommand
  · have hop : op = q.op := by
      rcases hq with ⟨rfl, rfl, -⟩ | ⟨rfl, rfl, -⟩ | ⟨n, rfl, rfl, -⟩ | ⟨n, rfl, rfl, -⟩ | ⟨n, v, rfl, rfl, -⟩
        | ⟨n, v, rfl, rfl, -⟩ <;> rfl
    exact .inr (e ▸ ⟨rfl, rfl, hop⟩)

include hone

/-- Admission does not look at what was read (R180). -/
theorem admitRequest_same (h : s.SameButReads t) : (admitRequest q s).SameButReads (admitRequest q t) := by
  cases q with
  | openPort | resetAndSync | close => cases hcommand
  | program | verify => cases hone
  | cmdReset | chipErase => exact admitPlain_same _ h
  | blockErase n | blankCheck n => exact admitBlock_same _ n h

/-- Whatever the state, so does a request for a command of one exchange, from its admission to its end. -/
theorem callOp_same {stx stx' len b : Byte} {rest rest' : List Byte} {r : List RxItem}
    (hrest : rest.length = len.toNat + 1) (hs : s.rx = (stx :: len :: b :: rest).map .byte ++ r)
    (hrest' : rest'.length = len.toNat + 1) (ht : t.rx = (stx' :: len :: b :: rest').map .byte ++ r)
    (h : s.SameButReads t) : (callOp q s).SameButReads (callOp q t) := by
  by_cases hidle : s.phase = .idle
  · rw [callOp_idle q s hidle, callOp_idle q t (h.phase.trans hidle)]
    have hadmitted := admitRequest_same hcommand hone h
    have hphase := hadmitted.phase
    rcases admitRequest_command hcommand s with hp | ⟨hp, hrx, hop⟩
    · rwa [ticks_idle _ _ hp, ticks_idle _ _ (hphase.trans hp)]
    · rcases admitRequest_command hcommand t with hp' | ⟨-, hrx', -⟩
      · cases hp'.symm.trans (hphase.trans hp)
      · exact ticks_exchange_same hrest (hrx.trans hs) hrest' (hrx'.trans ht) hadmitted hp (hop ▸ hone)
  · rw [callOp_busy q s hidle, callOp_busy q t (h.phase ▸ hidle)]
    obtain ⟨buf, hist, rx, rfl⟩ := h
    exact ⟨buf, hist, rx, rfl⟩

end admission

/-- The four commands of one exchange are their requests (R183 to R186). -/
theorem exec_oneExchange {i : Instr}
    (hi : i = .cmdReset ∨ i = .chipErase ∨ (∃ n, i = .blockErase n) ∨ ∃ n, i = .blankCheck n) :
    ∃ q : Request, q.op.isCommand = true ∧ q.op.twoPhase = false ∧ ∀ s, exec i s = .next (callOp q s) := by
  rcases hi with rfl | rfl | ⟨n, rfl⟩ | ⟨n, rfl⟩
  · exact ⟨.cmdReset, rfl, rfl, fun _ => rfl⟩
  · exact ⟨.chipErase, rfl, rfl, fun _ => rfl⟩
  · exact ⟨.blockErase n, rfl, rfl, fun _ => rfl⟩
  · exact ⟨.blankCheck n, rfl, rfl, fun _ => rfl⟩

/-- Settles O48: admission and every phase but the two reads never look at what was read, the reads bring LEN and the
status, and the check ends the command. -/
theorem onlyLenAndStatusDecideACommand : Obligations.OnlyLenAndStatusDecideACommand := by
  intro s i stx stx' len b rest rest' r t t' hi hrest hrest' ht ht'
  obtain ⟨q, hcommand, hone, hexec⟩ := exec_oneExchange hi
  obtain rfl := Host.Outcome.next.inj ((hexec _).symm.trans ht)
  obtain rfl := Host.Outcome.next.inj ((hexec _).symm.trans ht')
  obtain ⟨buf, hist, rx, e⟩ := callOp_same hcommand hone hrest rfl hrest' rfl
    (s := { s with rx := (stx :: len :: b :: rest).map .byte ++ r })
    (t := { s with rx := (stx' :: len :: b :: rest').map .byte ++ r }) ⟨s.rxbuf, s.hist, _, rfl⟩
  rw [e]
  exact ⟨rfl, rfl, rfl, rfl, rfl, rfl, rfl⟩

end Sys2Proof.Machine
end

section
/-! 41_frame_codec.md: what every encoded frame has (R142), the frame encoders and the response decoder as inverses
(R141), and DATA and RESP as what they do to the machine (R132 to R138). -/

namespace Sys2Proof.Machine

/-! ## The summed bytes and the end of a frame -/

/-- A frame's last two bytes are the checksum of what stands before and the end byte: the bytes between the first and
the last sum to 0 (R86, R87, R142). -/
theorem frame_end_and_zero_sum (buf : List Byte) (n : Nat) (etx : Byte) (hbuf : buf.length = n + 2) :
    byteAt (buf ++ [crc buf n, etx]) (n + 3) = etx
      ∧ byteSum (((buf ++ [crc buf n, etx]).drop 1).take (n + 2)) % 256 = 0 := by
  have hspan : ((buf ++ [crc buf n, etx]).drop 1).take (n + 2) = buf.drop 1 ++ [crc buf n] := by
    have hlength : n + 2 = (buf.drop 1).length + 1 := by rw [List.length_drop]; omega
    rw [List.drop_append_of_le_length (by omega), hlength, List.take_length_add_append]
    rfl
  have hcrc : crc buf n = -(buf.drop 1).sum := by
    rw [crc_eq_neg_sum, List.take_of_length_le (by rw [List.length_drop]; omega)]
  have hsum : BitVec.ofNat 8 (byteSum (buf.drop 1 ++ [crc buf n])) = 0 := by
    rw [ofNat_byteSum, List.sum_append, List.sum_singleton, hcrc, add_neg_cancel]
  constructor
  · rw [byteAt, List.getElem?_append_right (by omega), hbuf, show n + 3 - (n + 2) = 1 by omega]
    rfl
  · exact hspan ▸ congrArg BitVec.toNat hsum

/-- A decoded response has the count that its LEN gives (R92, R94). -/
theorem length_of_decode_response {raw : List Byte} {i : Instr} (h : decode .response raw = .ok i) :
    raw.length = (byteAt raw 1).toNat + 4 := by
  obtain ⟨rfl, hposition, hwf⟩ := encode_of_decodeResponse h
  cases i with
  | resp stx len status rest =>
    have hcount : rest.length + 1 = len.toNat + 2 := (of_decide_eq_true hwf).trans (tailCount_eq len)
    change rest.length + 3 = len.toNat + 4
    omega
  | _ => cases hposition

/-- Settles O4: both encoders close their bytes with the checksum and the end byte, and the response decoder compares
the count with LEN. -/
theorem encodedFramesHaveLengthEndAndZeroSum : Obligations.EncodedFramesHaveLengthEndAndZeroSum := by
  refine ⟨fun c a _ => ?command, fun p => ?data, fun raw i => length_of_decode_response⟩
  case command =>
    rw [encodeCommand_length, show a.length + 5 - 1 = 1 + a.length + 3 by omega,
      show a.length + 5 - 2 = 1 + a.length + 2 by omega]
    exact ⟨rfl, frame_end_and_zero_sum _ _ _ (by simp; omega)⟩
  case data => exact ⟨encodeData_length p, frame_end_and_zero_sum _ 256 _ (by simp)⟩

/-! ## A command frame read back -/

/-- A command frame has the count that its LEN byte gives, so it reads as a response whose status is its command byte
(R92, R141). -/
theorem decode_response_encodeCommand (c : Byte) (a : List Byte) (ha : a.length ≤ 6) :
    ∃ stx len rest, decode .response (encodeCommand c a) = .ok (.resp stx len c rest)
      ∧ stx :: len :: c :: rest = encodeCommand c a := by
  have hcount : (a ++ [crc (Config.stxCmd :: BitVec.ofNat 8 (1 + a.length) :: c :: a) (1 + a.length),
      Config.etx]).length + 1 = tailCount (BitVec.ofNat 8 (1 + a.length)) := by
    rw [tailCount_eq, BitVec.toNat_ofNat, List.length_append, List.length_cons, List.length_singleton]
    omega
  exact ⟨_, _, _, decodeInvertsEncode (.resp _ _ c _) (decide_eq_true hcount), rfl⟩

/-- Settles O7: a command frame is parsed and read as a response, and its address bytes are the block's first and last
address. -/
theorem commandFrameRoundTrips : Obligations.CommandFrameRoundTrips := by
  refine ⟨fun c a ha => ⟨?parses, decode_response_encodeCommand c a (by omega)⟩, fun n hn => ?block⟩
  case parses => rw [parseCommandFrame, parseCommand_encodeCommand c a ha]; rfl
  case block =>
    intro a
    have hstart : unbe24 (byteAt a 0) (byteAt a 1) (byteAt a 2) = n * 1024 :=
      (unbe24_extract (startAddress n)).trans (startAddress_toNat n hn)
    have hend : unbe24 (byteAt a 3) (byteAt a 4) (byteAt a 5) = n * 1024 + 1023 :=
      (unbe24_extract (endAddress n)).trans (endAddress_toNat n hn)
    rw [hstart, hend]
    exact ⟨Nat.mul_div_cancel n (by decide), rfl⟩

/-! ## DATA -/

variable {s : State}

/-- A write step whose write is answered ok goes on (R53). -/
theorem writeStep_ok {w : List WriteAnswer} (next : Phase) (x : Exchange) (s : State) (h : s.writes = .ok :: w) :
    writeStep next x s =
      { s with writes := w, tx := s.tx ++ s.txFrame, hist := s.hist ++ [.tx s.txFrame true], phase := next } := by
  rw [writeStep, memWrite_ok _ _ _ h]

/-- A write step whose write is answered with an error raises TransportError (R53, R211). -/
theorem writeStep_error {w : List WriteAnswer} {k : Nat} (next : Phase) (x : Exchange) (s : State)
    (h : s.writes = .error k :: w) :
    writeStep next x s = raiseFailure .transportWrite (some x)
      { s with writes := w, tx := s.tx ++ s.txFrame.take k, hist := s.hist ++ [.tx s.txFrame false] } := by
  rw [writeStep, memWrite_error _ _ _ _ h]

/-- DATA is its two phases, of which the second sends what the first has built (R132, R181). -/
theorem exec_data (p : Payload) (hp : s.phase = .dEnc) :
    exec (.data p) s = .next (writeStep .dRxh .data (encodeStep (encodeData p) .dTx s)) :=
  if_pos hp

theorem txFrame_encodeData (p : Payload) (next : Phase) (s : State) :
    (encodeStep (encodeData p) next s).txFrame = encodeData p :=
  txFrame_encodeStep _ _ _ (encodeData_length p).le

/-- Settles O31: the frame of the payload is what TXBUF holds when it is written, and the write goes on or fails. -/
theorem dataFrameIsSent : Obligations.DataFrameIsSent := by
  refine fun s p => ⟨fun hp w hw => ?sent, fun hp hop w k hw => ?failed, fun hp => if_neg hp⟩
  case sent =>
    rw [exec_data p hp, writeStep_ok _ _ (encodeStep (encodeData p) .dTx s) hw, txFrame_encodeData, encodeStep,
      encodeData_length]
  case failed =>
    rw [exec_data p hp, writeStep_error _ _ (encodeStep (encodeData p) .dTx s) hw, txFrame_encodeData]
    exact ⟨_, rfl, raiseFailure_result .., (raiseFailure_sess ..).trans (if_neg hop), raiseFailure_phase ..,
      raiseFailure_op .., raiseFailure_hist .., raiseFailure_tx ..⟩

/-! ## RESP -/

/-- The state after a response, with the counts in LEN: nothing but the status, RXBUF, the phase, the record, TIMER and
the count of draws is new (R133, R136). -/
theorem afterResponse_eq (stx len b : Byte) (rest : List Byte) (next : Phase) (s : State) :
    s.afterResponse stx len b rest next =
      { s with
        status := b, statusV := true, rxbuf := (s.afterResponse stx len b rest next).rxbuf, rxlen := len.toNat + 4
        timer := (s.afterResponse stx len b rest next).timer, draws := (s.afterResponse stx len b rest next).draws
        phase := next
        hist := s.hist ++ [.rx 2 [stx, len], .rx (len.toNat + 2) (b :: rest)] } := by
  have hrxlen : 2 + tailCount len = len.toNat + 4 := by rw [tailCount_eq]; omega
  rw [State.afterResponse, hrxlen, tailCount_eq, List.append_assoc]
  rfl

section wholeResponse

variable {stx len b : Byte} {rest : List Byte} (hrest : rest.length = len.toNat + 1)
include hrest

/-- At either header phase RESP reads its response whole, and the check phase of that exchange follows (R133, R189). -/
theorem exec_resp (hp : s.phase = .cRxh ∨ s.phase = .dRxh) :
    exec (.resp stx len b rest) s =
      .next (s.afterResponse stx len b rest (if s.phase = .cRxh then .cChk else .dChk)) := by
  change execResp stx len b rest s = _
  rcases hp with hp | hp <;> simp only [execResp, hp, reduceCtorEq, if_true, if_false, decodeResponseStep_eq hrest]

/-- RXBUF holds the raw response, as long as it is (R27, R136). -/
theorem afterResponse_rxFrame (next : Phase) (s : State) :
    (s.afterResponse stx len b rest next).rxFrame = stx :: len :: b :: rest := by
  have hheader : (overlay s.rxbuf 0 [stx, len]).toList.take 2 = [stx, len] := overlay_take _ [stx, len] (by simp)
  rw [State.rxFrame, State.afterResponse, overlay_tail _ _ (length_tail hrest) (tailCount_bounds len).2, hheader]
  rfl

/-- Beyond the response RXBUF is as before. -/
theorem afterResponse_rxbuf_beyond (next : Phase) (s : State) (i : Nat) (hi : i < 259) (hbeyond : len.toNat + 4 ≤ i) :
    (s.afterResponse stx len b rest next).rxbuf[i] = s.rxbuf[i] :=
  calc (overlay (overlay s.rxbuf 0 [stx, len]) 2 (b :: rest))[i]
      = (overlay s.rxbuf 0 [stx, len])[i] := overlay_get_beyond _ _ _ _ hi (by rw [List.length_cons, hrest]; omega)
    _ = s.rxbuf[i] := overlay_get_beyond _ _ _ _ hi (by simp; omega)

end wholeResponse

/-- Settles O32: RESP reads the response whole at its two phases, and RXBUF holds it and is kept beyond it. -/
theorem responseIsDecoded : Obligations.ResponseIsDecoded := by
  intro s stx len b rest hrest
  refine ⟨fun hp => ?decoded, fun hc hd => (if_neg hc).trans (if_neg hd)⟩
  case decoded =>
    exact ⟨_, _, _, exec_resp hrest hp, rfl, afterResponse_rxFrame hrest _ s, afterResponse_rxbuf_beyond hrest _ s,
      afterResponse_eq stx len b rest _ s⟩

end Sys2Proof.Machine
end

section
/-! 42_status_table.md: the 13 listed codes with their names and classes (R150, R151, R154), and the result code and
blank verdict that a host derives (R155, R193). -/

namespace Sys2Proof.Machine

/-! ## The listed codes -/

/-- The 13 codes of the table, in its order (R150). -/
def statusCodes : List Byte :=
  [0x00#8, 0x04#8, 0x05#8, Config.stAck, 0x07#8, 0x0F#8, 0x10#8, 0x15#8, 0x1A#8, 0x1B#8, 0x1C#8, 0x20#8, 0xFF#8]

variable {b : Byte}

/-- A decoder that tests for one byte first succeeds on that byte, and where the decoder after it does. -/
theorem exists_ok_ite {ε α : Type} (c : Byte) (x : α) (e : Except ε α) :
    (∃ i, (if b = c then .ok x else e) = .ok i) ↔ b = c ∨ ∃ i, e = .ok i := by
  by_cases h : b = c
  · simp only [h, if_true, true_or, Except.ok.injEq, exists_eq']
  · simp only [h, if_false, false_or]

/-- The bytes that decode as a status are the 13 codes (R150). -/
theorem decode_status_ok_iff : (∃ i, decode .status [b] = .ok i) ↔ b ∈ statusCodes := by
  change (∃ i, statusOf b = .ok i) ↔ _
  simp only [statusOf, exists_ok_ite, statusCodes, List.mem_cons, List.not_mem_nil, reduceCtorEq, exists_false]

/-- Every byte that is not a listed code is UNKNOWN (R151). -/
theorem statusClass_of_not_mem (h : b ∉ statusCodes) : statusClass b = .unknown := by
  simp only [statusCodes, List.mem_cons, List.not_mem_nil, not_or] at h
  simp only [statusClass, h, if_false]

/-- Settles O11: the rows are read off the table, and a byte outside them equals none of the codes tested for. -/
theorem statusTable : Obligations.StatusTable := by
  refine ⟨?rows, fun b => ⟨decode_status_ok_iff, fun h => ?unlisted⟩⟩
  case rows => decide
  case unlisted =>
    have hclass : statusClass b = .unknown := statusClass_of_not_mem h
    exact ⟨congrArg className hclass, hclass⟩

/-! ## Names and classes are distinct -/

theorem mem_statusCodes_of_known (h : statusClass b ≠ .unknown) : b ∈ statusCodes :=
  not_imp_comm.mp statusClass_of_not_mem h

/-- The 13 names are pairwise different (R154). -/
theorem nodup_statusNames : (statusCodes.map statusName).Nodup := by decide

/-- Settles O12: the names of the 13 codes have no duplicate, and a code's class gives its name. -/
theorem statusNamesDistinct : Obligations.StatusNamesDistinct := by
  intro a b ha hb
  have hacode := mem_statusCodes_of_known ha
  have hbcode := mem_statusCodes_of_known hb
  have hnames : statusName a = statusName b → a = b :=
    fun h => List.inj_on_of_nodup_map nodup_statusNames hacode hbcode h
  have hnonempty : ∀ c ∈ statusCodes, statusName c ≠ "" := by decide
  exact ⟨hnonempty a hacode, hnames, fun h => hnames (congrArg className h)⟩

/-! ## What a host derives -/

/-- Settles O52: each result has its own row of R193, and the blank verdict is the definition's. -/
theorem resultCodes : Obligations.ResultCodes :=
  ⟨rfl, fun _ _ _ => rfl, fun _ => rfl, fun _ => rfl, fun _ => rfl⟩

end Sys2Proof.Machine
end

section
/-! 43_transport_session.md: OPEN (R160), the handshake (R163, R165) and CLOSE (R168), each from IDLE to IDLE. -/

namespace Sys2Proof.Machine

variable {s : State}

/-! ## Operations of no phase and of one phase -/

/-- A request that admission refuses is over with the refusal (R224). -/
theorem callOp_refused {q : Request} {r : Reason} (hp : s.phase = .idle) (h : admitRequest q s = refuse r s) :
    callOp q s = refuse r s := by
  rw [callOp_idle q s hp, h, ticks_idle 10 _ (refuse_phase s r)]

/-- An operation whose first phase is its last is that phase. -/
theorem callOp_onePhase {q : Request} {t : State} (hp : s.phase = .idle) (h : tick (admitRequest q s) = t)
    (ht : t.phase = .idle) : callOp q s = t :=
  calc callOp q s
    _ = ticks 9 (tick (admitRequest q s)) := callOp_idle q s hp
    _ = t := by rw [h, ticks_idle 9 t ht]

/-! ## OPEN -/

theorem openStep_ok {o : List Bool} (h : s.opens = true :: o) : openStep s =
    finish .ok { s with opens := o, hist := s.hist ++ [.opened s.port true], tx := [], sess := .opened } := by
  simp only [openStep, openAnswer, h]

theorem openStep_error {o : List Bool} (h : s.opens = false :: o) : openStep s =
    raiseFailure .transportOpen none { s with opens := o, hist := s.hist ++ [.opened s.port false] } := by
  simp only [openStep, openAnswer, h]

/-- OPEN is admitted where there is no session. -/
theorem admitOpen_closed (port : String) (h : s.sess = .closed) :
    admitOpen port s = { s with op := .openPort, port := port, phase := .opening } := by
  simp only [admitOpen, h]

theorem admitOpen_refused (port : String) (h : s.sess ≠ .closed) : admitOpen port s = refuse .alreadyOpen s := by
  cases hs : s.sess with
  | closed => exact absurd hs h
  | opened | synced | failed => simp only [admitOpen, hs]

/-- Settles O22: OPEN is its one phase, which does what the transport answers; admission refuses it in a session. -/
theorem openOperation : Obligations.OpenOperation := by
  intro s port hp
  have hphase (hs : s.sess = .closed) :
      tick (admitRequest (.openPort port) s) = openStep { s with op := .openPort, port := port, phase := .opening } :=
    congrArg tick (admitOpen_closed port hs)
  refine ⟨fun hs => ⟨fun o ho => ?opened, fun o ho => ?failed⟩, fun hs => ?refused⟩
  case opened =>
    rw [callOp_onePhase hp ((hphase hs).trans (openStep_ok ho)) rfl]
    simp only [finish, hp]
  case failed =>
    rw [callOp_onePhase hp ((hphase hs).trans (openStep_error ho)) rfl]
    simp only [raiseFailure, finish, if_true, hp]
  case refused =>
    rw [callOp_refused (q := .openPort port) hp (admitOpen_refused port hs)]
    simp only [refuse, finish, hp]

/-! ## The handshake -/

theorem syncStep_ok {w : List WriteAnswer} (next : Phase) (h : s.writes = .ok :: w) : syncStep next s =
    { s with writes := w, tx := s.tx ++ [0x00#8], hist := s.hist ++ [.tx [0x00#8] true], phase := next } := by
  simp only [syncStep, memWrite_ok _ _ _ h]

theorem syncStep_error {w : List WriteAnswer} {k : Nat} (next : Phase) (h : s.writes = .error k :: w) :
    syncStep next s = raiseFailure .transportWrite none
      { s with writes := w, tx := s.tx ++ [0x00#8].take k, hist := s.hist ++ [.tx [0x00#8] false] } := by
  simp only [syncStep, memWrite_error _ _ _ _ h]

/-- The handshake admitted in `s` and before its first sync byte: the line has been pulsed (R165, steps 1 to 6). -/
def State.linePulsed (s : State) : State :=
  { s with
    op := .resetAndSync, ctl := true, timer := 0, phase := .hs6
    hist := s.hist ++ [.ctl true, .delay 11, .ctl false, .delay 11, .ctl true, .delay 400] }

/-- The handshake before its second sync byte: the first has been written, and `w` answers the writes to come (R165,
steps 7 and 8). -/
def State.firstByteSent (w : List WriteAnswer) (s : State) : State :=
  { s with
    tx := s.tx ++ [0x00#8], timer := 0, writes := w, phase := .hs8
    hist := s.hist ++ [.tx [0x00#8] true, .delay 11] }

/-- In an OPEN session the handshake pulses the line, whatever the environment; four phases are left. -/
theorem callOp_resetAndSync (hp : s.phase = .idle) (hs : s.sess = .opened) :
    callOp .resetAndSync s = ticks 4 s.linePulsed := by
  have hadmit : admitRequest .resetAndSync s = { s with op := .resetAndSync, phase := .hs0 } := by
    simp only [admitRequest, admitResetAndSync, hs]
  have hpulse : ticks 6 { s with op := .resetAndSync, phase := .hs0 } = s.linePulsed := by
    simp [ticks, tick, setCtl, delay, State.linePulsed]
  rw [callOp_idle _ s hp, hadmit, ticks_add 6 4, hpulse]

theorem ticks_firstByte {w : List WriteAnswer} (hp : s.phase = .hs6) (hw : s.writes = .ok :: w) :
    ticks 2 s = s.firstByteSent w := by
  simp [ticks, tick, hp, syncStep_ok _ hw, delay, State.firstByteSent]

/-- Where the first sync byte is written, two phases are left. -/
theorem callOp_resetAndSync_firstByte {w : List WriteAnswer} (hp : s.phase = .idle) (hs : s.sess = .opened)
    (hw : s.writes = .ok :: w) : callOp .resetAndSync s = ticks 2 (s.linePulsed.firstByteSent w) := by
  rw [callOp_resetAndSync hp hs, ticks_add 2 2, ticks_firstByte (s := s.linePulsed) rfl hw]

theorem ticks_secondByte {w : List WriteAnswer} (hp : s.phase = .hs8) (hw : s.writes = .ok :: w) :
    ticks 2 s = finish .ok
      { s with
        tx := s.tx ++ [0x00#8], timer := 0, writes := w, sess := .synced, phase := .hs9
        hist := s.hist ++ [.tx [0x00#8] true, .delay 11] } := by
  simp [ticks, tick, hp, syncStep_ok _ hw, delay]

/-- A sync byte that cannot be written ends the handshake, however many phases were left (R163). -/
theorem ticks_unwrittenByte {w : List WriteAnswer} {k : Nat} (n : Nat) (hp : s.phase = .hs6 ∨ s.phase = .hs8)
    (hw : s.writes = .error k :: w) :
    ticks (n + 1) s = raiseFailure .transportWrite none
      { s with writes := w, tx := s.tx ++ [0x00#8].take k, hist := s.hist ++ [.tx [0x00#8] false] } := by
  obtain ⟨next, hstep⟩ : ∃ next, tick s = syncStep next s := by
    rcases hp with hp | hp
    · exact ⟨.hs7, by simp only [tick, hp]⟩
    · exact ⟨.hs9, by simp only [tick, hp]⟩
  rw [ticks, hstep, syncStep_error next hw]
  exact ticks_idle n _ (raiseFailure_phase ..)

/-- Settles O23: the line's six phases, then each sync byte with its delay, from one named state to the next. -/
theorem handshakeCompletes : Obligations.HandshakeCompletes := by
  intro s w hp hs hw
  refine ⟨0, congrArg Host.Outcome.next ?_⟩
  rw [callOp_resetAndSync_firstByte hp hs hw, ticks_secondByte rfl rfl]
  simp [State.firstByteSent, State.linePulsed, finish, hp]

/-- Settles O24: the first or the second sync byte ends the handshake where it stands; the other session states do
not admit it. -/
theorem handshakeFailuresAndRefusals : Obligations.HandshakeFailuresAndRefusals := by
  intro s hp
  have hrefused {r : Reason} (h : admitResetAndSync s = refuse r s) : exec .sync s = .next (refuse r s) :=
    congrArg Host.Outcome.next (callOp_refused hp h)
  refine ⟨fun w k hs hw => ?first, fun w k hs hw => ?second, fun hs => hrefused ?_, fun hs => hrefused ?_,
    fun hs => hrefused ?_⟩
  case first =>
    refine ⟨_, congrArg Host.Outcome.next
      ((callOp_resetAndSync hp hs).trans (ticks_unwrittenByte 3 (.inl rfl) hw)), ?_⟩
    simp [raiseFailure, State.linePulsed]
  case second =>
    refine ⟨_, congrArg Host.Outcome.next
      ((callOp_resetAndSync_firstByte hp hs hw).trans (ticks_unwrittenByte 1 (.inr rfl) rfl)), ?_⟩
    simp [raiseFailure, State.firstByteSent, State.linePulsed]
  all_goals simp only [admitResetAndSync, hs]

/-! ## CLOSE -/

theorem closeStep_closed (h : s.sess = .closed) : closeStep s = finish .ok s := if_pos h

theorem closeStep_session (h : s.sess ≠ .closed) :
    closeStep s = finish .ok { s with hist := s.hist ++ [.closed], sess := .closed } := if_neg h

/-- Settles O25: CLOSE is its one phase, which has something to record only where there is a session. -/
theorem closeOperation : Obligations.CloseOperation := by
  intro s hp
  refine ⟨fun hs => ?closed, fun hs => ?session⟩
  case closed =>
    have hphase := closeStep_closed (s := admitClose s) hs
    rw [callOp_onePhase (q := .close) hp hphase rfl]
    simp only [finish, admitClose, hp]
  case session =>
    have hphase := closeStep_session (s := admitClose s) hs
    rw [callOp_onePhase (q := .close) hp hphase rfl]
    simp only [finish, admitClose, hp]

end Sys2Proof.Machine
end

section
/-! 44_command_engine.md: the command engine. Admission and the phases of an exchange (R180, R189), the six commands
with their exchanges (R181 to R188), and what no operation and no run can send (R190, R192). -/

namespace Sys2Proof.Machine

variable {s t u : State}

/-! ## Admission -/

/-- A command without operands is refused without a session, then in a failed one (R180). -/
theorem admitPlain_eq (op : Op) (s : State) :
    admitPlain op s =
      if s.sess = .closed ∨ s.sess = .opened then refuse .noSession s
      else if s.sess = .failed then refuse .sessionFailed s
      else startCommand op s := by
  cases h : s.sess <;> simp [admitPlain, h]

/-- A command on a block is refused for its session first, then for its block (R180). -/
theorem admitBlock_eq (op : Op) (n : Nat) (s : State) :
    admitBlock op n s =
      if s.sess = .closed ∨ s.sess = .opened then refuse .noSession s
      else if s.sess = .failed then refuse .sessionFailed s
      else if n > 16383 then refuse .blockOutOfRange s
      else startCommand op { s with blk := BitVec.ofNat 14 n } := by
  cases h : s.sess <;> simp [admitBlock, h]

/-- A command with a payload is refused for its session, then for its block, and last for its payload (R180). -/
theorem admitPayload_eq (op : Op) (n : Nat) (p : List Byte) (s : State) :
    admitPayload op n p s =
      if s.sess = .closed ∨ s.sess = .opened then refuse .noSession s
      else if s.sess = .failed then refuse .sessionFailed s
      else if n > 16383 then refuse .blockOutOfRange s
      else if h : p.length ≠ 256 then refuse (.badPayloadLength p.length) s
      else startCommand op { s with blk := BitVec.ofNat 14 n, data := ⟨p.toArray, by simpa using h⟩ } := by
  by_cases hlen : p.length = 256 <;> cases h : s.sess <;> simp [admitPayload, payloadOf, hlen, h]

/-- Busy is the first check (R180). -/
theorem post_eq (q : Request) (s : State) :
    post q s = if s.phase ≠ .idle then refuseBusy s else admitRequest q s := (ite_not ..).symm

/-- Settles O15: Busy comes first, and each operand form has its own chain of checks behind it. -/
theorem commandAdmissionOrder : Obligations.CommandAdmissionOrder := by
  refine fun s => ⟨fun q n p hq => ?payload, fun q n hq => ?block, fun q hq => ?plain⟩
  case payload =>
    rcases hq with rfl | rfl <;> simp only [post_eq, admitRequest, admitPayload_eq, reduceCtorEq, if_true, if_false] <;>
      rfl
  case block =>
    rcases hq with rfl | rfl <;> simp only [post_eq, admitRequest, admitBlock_eq, reduceCtorEq, if_true, if_false] <;>
      rfl
  case plain =>
    rcases hq with rfl | rfl <;> simp only [post_eq, admitRequest, admitPlain_eq, reduceCtorEq, if_true, if_false] <;>
      rfl

/-! ## The phases of an exchange, one equation each (R181, R189) -/

theorem tick_cEnc (h : s.phase = .cEnc) : tick s = encodeStep (commandFrame s.op s.blk) .cTx s := by
  simp only [tick, h]

theorem tick_cTx (h : s.phase = .cTx) : tick s = writeStep .cRxh .command s := by simp only [tick, h]

theorem tick_cRxh (h : s.phase = .cRxh) : tick s = headerStep .cRxt .command s := by simp only [tick, h]

theorem tick_cRxt (h : s.phase = .cRxt) : tick s = tailStep .cChk .command s := by simp only [tick, h]

theorem tick_dEnc (h : s.phase = .dEnc) : tick s = encodeStep (encodeData s.data) .dTx s := by simp only [tick, h]

theorem tick_dTx (h : s.phase = .dTx) : tick s = writeStep .dRxh .data s := by simp only [tick, h]

theorem tick_dRxh (h : s.phase = .dRxh) : tick s = headerStep .dRxt .data s := by simp only [tick, h]

theorem tick_dRxt (h : s.phase = .dRxt) : tick s = tailStep .dChk .data s := by simp only [tick, h]

theorem tick_check (h : s.phase = .cChk ∨ s.phase = .dChk) : tick s = judge s.status s := by
  rcases h with h | h <;> simp only [tick, h]

/-! ## The judgement of a status -/

theorem twoPhase_iff (op : Op) : op.twoPhase = true ↔ op = .program ∨ op = .verify := by
  cases op <;> simp [Op.twoPhase]

/-- The check of the command exchange (R182, R186). -/
theorem judge_cChk (b : Byte) (h : s.phase = .cChk) :
    judge b s =
      if s.op = .blankCheck then finish (.statusReturned b) s
      else if b = 0x06#8 then
        if s.op = .program ∨ s.op = .verify then { s with phase := .dEnc } else finish .ok s
      else raiseFailure (.protocol b (statusName b)) (some .command) s := by
  simp only [judge, h, reduceCtorEq, if_false, twoPhase_iff]

/-- The check of the data exchange (R182). -/
theorem judge_dChk (b : Byte) (h : s.phase = .dChk) :
    judge b s =
      if b = 0x06#8 then finish .ok s
      else raiseFailure (.protocol b (statusName b)) (some .data) s :=
  if_pos h

/-- A request has ended with the result `r`, and the session is `p` (R189, R221). -/
def State.endedWith (r : Result) (p : Sess) (s : State) : State := { finish r s with sess := p }

/-- Every failure but that of OPEN ends the session (R221). -/
theorem raiseFailure_eq_endedWith (f : Failure) (x : Option Exchange) (h : s.op ≠ .openPort) :
    raiseFailure f x s = s.endedWith (.fail f s.op x) .failed :=
  if_neg h

/-- The 13 status instructions with their bytes (R150). -/
def listedStatuses : List (Instr × Byte) :=
  [(.status00, 0x00#8), (.status04, 0x04#8), (.status05, 0x05#8), (.status06, 0x06#8), (.status07, 0x07#8),
    (.status0F, 0x0F#8), (.status10, 0x10#8), (.status15, 0x15#8), (.status1A, 0x1A#8), (.status1B, 0x1B#8),
    (.status1C, 0x1C#8), (.status20, 0x20#8), (.statusFF, 0xFF#8)]

/-- Each listed byte decodes at the status position to its own instruction (R150). -/
theorem decode_listed_status {i : Instr} {b : Byte} (h : (i, b) ∈ listedStatuses) : decode .status [b] = .ok i := by
  have hall : ∀ row ∈ listedStatuses, decode .status [row.2] = .ok row.1 := by decide
  exact hall (i, b) h

theorem judgeAtCheck_check (b : Byte) (h : s.phase = .cChk ∨ s.phase = .dChk) :
    judgeAtCheck b s = .next (judge b s) := by
  rcases h with h | h <;> exact if_pos (h ▸ rfl)

theorem judgeAtCheck_other (b : Byte) (hc : s.phase ≠ .cChk) (hd : s.phase ≠ .dChk) :
    judgeAtCheck b s = .fault .notAtItsPhase := by
  refine if_neg ?_
  cases hp : s.phase <;> simp_all [Phase.judges]

/-- Settles O33: a listed status is the judgement of its byte, which each check phase has its own rows for. -/
theorem statusBytesAreJudged : Obligations.StatusBytesAreJudged := by
  intro s i b hlisted hop
  have hexec : exec i s = judgeAtCheck b s := exec_status (decode_listed_status hlisted)
  refine ⟨fun hp => ?command, fun hp => ?data, fun hc hd => ?other⟩
  case command =>
    rw [hexec, judgeAtCheck_check b (.inl hp), judge_cChk b hp, raiseFailure_eq_endedWith _ _ hop]
    rfl
  case data =>
    rw [hexec, judgeAtCheck_check b (.inr hp), judge_dChk b hp, raiseFailure_eq_endedWith _ _ hop]
    rfl
  case other => rw [hexec, judgeAtCheck_other b hc hd]

/-! ## What each phase leads to (R189) -/

/-- From `s` the command under way goes on to the phase `p` of `t`, unreported (R189). -/
def State.GoesTo (s t : State) (p : Phase) : Prop :=
  t.phase = p ∧ t.op = s.op ∧ t.sess = .synced ∧ t.result = s.result

/-- The command has ended at `t` with the result `r`, in the SYNCED session (R189). -/
def State.DoneWith (t : State) (r : Result) : Prop :=
  t.phase = .idle ∧ t.op = .none ∧ t.sess = .synced ∧ t.result = r

/-- The command under way at `s` has failed at `t`, in the exchange `x` (R189, R221). -/
def State.FailsIn (s t : State) (x : Exchange) (f : Failure) : Prop :=
  t.phase = .idle ∧ t.op = .none ∧ t.sess = .failed ∧ t.result = .fail f s.op (some x)

theorem raiseFailure_failsIn (f : Failure) (x : Exchange) (hop : s.op ≠ .openPort) (hu : u.op = s.op) :
    s.FailsIn (raiseFailure f (some x) u) x f := by
  rw [raiseFailure_eq_endedWith _ _ (hu ▸ hop), hu]
  exact ⟨rfl, rfl, rfl, rfl⟩

theorem failsIn_of_failure {f : Failure} {x : Exchange} (hop : s.op ≠ .openPort)
    (ht : t = raiseFailure f (some x) s) : s.FailsIn t x f :=
  ht ▸ raiseFailure_failsIn f x hop rfl

section phases

variable (hs : s.sess = .synced) {next : Phase}
include hs

theorem encodeStep_goesTo {f : List Byte} (ht : t = encodeStep f next s) : s.GoesTo t next :=
  ht ▸ ⟨rfl, rfl, hs, rfl⟩

theorem goesTo_dEnc (ht : t = { s with phase := .dEnc }) : s.GoesTo t .dEnc :=
  ht ▸ ⟨rfl, rfl, hs, rfl⟩

theorem finish_doneWith {r : Result} (ht : t = finish r s) : t.DoneWith r :=
  ht ▸ ⟨rfl, rfl, hs, rfl⟩

variable (hop : s.op ≠ .openPort) {x : Exchange}
include hop

/-- A write goes on or fails, and records its frame either way (R166, R211). -/
theorem writeStep_leadsTo (ht : t = writeStep next x s) :
    s.GoesTo t next ∧ t.hist = s.hist ++ [.tx s.txFrame true]
      ∨ s.FailsIn t x .transportWrite ∧ t.hist = s.hist ++ [.tx s.txFrame false] := by
  rcases writeStep_cases next x s with ⟨w, d, e⟩ | ⟨w, d, k, e⟩ <;> rw [ht, e]
  · exact .inl ⟨⟨rfl, rfl, hs, rfl⟩, rfl⟩
  · exact .inr ⟨raiseFailure_failsIn _ x hop rfl, raiseFailure_hist ..⟩

/-- A header of two bytes goes on, a shorter one is a FramingError (R134, R212). -/
theorem headerStep_leadsTo (ht : t = headerStep next x s) : ∃ h, t.hist = s.hist ++ [.rx 2 h] ∧
    (h.length = 2 ∧ s.GoesTo t next ∨ h.length < 2 ∧ s.FailsIn t x (.framing 2 h.length)) := by
  obtain ⟨h, rx, tm, d, hlen, e⟩ := headerStep_cases next x s
  rw [ht, e]
  rcases Nat.lt_or_eq_of_le hlen with hshort | hfull
  · rw [takeHeader_short _ _ _ _ hshort]
    exact ⟨h, raiseFailure_hist .., .inr ⟨hshort, raiseFailure_failsIn _ x hop rfl⟩⟩
  · rw [takeHeader_full _ _ _ _ hfull]
    exact ⟨h, rfl, .inl ⟨hfull, rfl, rfl, hs, rfl⟩⟩

/-- A tail as long as LEN asks for goes on with its first byte as the status, a shorter one is a FramingError (R135,
R212). -/
theorem tailStep_leadsTo (ht : t = tailStep next x s) :
    ∃ v, t.hist = s.hist ++ [.rx (s.rxbuf[1].toNat + 2) v] ∧
      (v.length = s.rxbuf[1].toNat + 2 ∧ s.GoesTo t next ∧ t.status = byteAt v 0
        ∨ v.length < s.rxbuf[1].toNat + 2 ∧ s.FailsIn t x (.framing (s.rxbuf[1].toNat + 2) v.length)) := by
  obtain ⟨v, rx, tm, d, hlen, e⟩ := tailStep_cases next x s
  obtain ⟨hmin, hmax⟩ := tailCount_bounds s.rxbuf[1]
  rw [ht, e, ← tailCount_eq]
  rcases Nat.lt_or_eq_of_le hlen with hshort | hfull
  · rw [takeTail_short _ _ _ _ _ hshort]
    exact ⟨v, raiseFailure_hist .., .inr ⟨hshort, raiseFailure_failsIn _ x hop rfl⟩⟩
  · rw [takeTail_full _ _ _ _ _ hfull (by omega) hmax]
    exact ⟨v, rfl, .inl ⟨hfull, ⟨rfl, rfl, hs, rfl⟩, rfl⟩⟩

end phases

/-- At a phase of the command exchange a command is under way in a SYNCED session (R180). -/
theorem command_under_way (h : s.PhaseFits) (hp : s.phase ∈ [.cEnc, .cTx, .cRxh, .cRxt, .cChk]) :
    s.sess = .synced ∧ s.op ≠ .openPort := by
  have hfits : s.op.isCommand = true ∧ s.sess = .synced := by
    simp only [List.mem_cons, List.not_mem_nil, or_false] at hp
    rcases hp with hp | hp | hp | hp | hp <;> simpa only [State.PhaseFits, hp] using h
  exact ⟨hfits.2, fun ho => by cases ho ▸ hfits.1⟩

/-- At a phase of the data exchange, too: Program or Verify (R187, R188). -/
theorem data_under_way (h : s.PhaseFits) (hp : s.phase ∈ [.dEnc, .dTx, .dRxh, .dRxt, .dChk]) :
    s.sess = .synced ∧ s.op ≠ .openPort := by
  have hfits : s.op.twoPhase = true ∧ s.sess = .synced := by
    simp only [List.mem_cons, List.not_mem_nil, or_false] at hp
    rcases hp with hp | hp | hp | hp | hp <;> simpa only [State.PhaseFits, hp] using h
  exact ⟨hfits.2, fun ho => by cases ho ▸ hfits.1⟩

/-! ### The two checks -/

section checks

variable (hp : s.phase = .cChk)
include hp

/-- A blank check returns its status, whatever it is (R186). -/
theorem tick_cChk_blankCheck (hop : s.op = .blankCheck) : tick s = finish (.statusReturned s.status) s :=
  (tick_check (.inl hp)).trans ((judge_cChk _ hp).trans (if_pos hop))

/-- ACK ends a command of one exchange well (R182). -/
theorem tick_cChk_ack_onePhase (hb : s.status = 0x06#8) (hblank : s.op ≠ .blankCheck)
    (hone : s.op.twoPhase = false) : tick s = finish .ok s := by
  have hop : ¬(s.op = .program ∨ s.op = .verify) := by simp [← twoPhase_iff, hone]
  rw [tick_check (.inl hp), judge_cChk _ hp, if_neg hblank, if_pos hb, if_neg hop]

/-- ACK goes on to the data phase in Program and Verify (R187, R188). -/
theorem tick_cChk_ack_twoPhase (hb : s.status = 0x06#8) (htwo : s.op.twoPhase = true) :
    tick s = { s with phase := .dEnc } := by
  have hop : s.op = .program ∨ s.op = .verify := (twoPhase_iff _).mp htwo
  have hblank : s.op ≠ .blankCheck := fun h => by simp [h] at hop
  rw [tick_check (.inl hp), judge_cChk _ hp, if_neg hblank, if_pos hb, if_pos hop]

/-- Every other status fails every other command (R182). -/
theorem tick_cChk_rejected (hb : s.status ≠ 0x06#8) (hop : s.op ≠ .blankCheck) :
    tick s = raiseFailure (.protocol s.status (statusName s.status)) (some .command) s :=
  (tick_check (.inl hp)).trans ((judge_cChk _ hp).trans ((if_neg hop).trans (if_neg hb)))

end checks

/-- The second status decides Program and Verify (R182, R187, R188). -/
theorem tick_dChk (hp : s.phase = .dChk) :
    tick s =
      if s.status = 0x06#8 then finish .ok s
      else raiseFailure (.protocol s.status (statusName s.status)) (some .data) s :=
  (tick_check (.inr hp)).trans (judge_dChk _ hp)

/-- Settles O16: each row is what its phase does, in the SYNCED session that the premise gives. -/
theorem exchangePhaseTransitions : Obligations.ExchangePhaseTransitions := by
  intro s hfits t failed done goes
  have hcommand := command_under_way hfits
  have hdata := data_under_way hfits
  refine ⟨fun hp => ?cEnc, fun hp => ?dEnc, fun hp => ?cTx, fun hp => ?dTx, fun hp => ?cRxh, fun hp => ?dRxh,
    fun hp => ?cRxt, fun hp => ?dRxt, fun hp hop => ?blankCheck, fun hp hb hop => ?onePhase,
    fun hp hb hop => ?twoPhase, fun hp hb hop => ?rejected, fun hp hb => ?dataAck, fun hp hb => ?dataRejected⟩
  case cEnc => exact encodeStep_goesTo (hcommand (by simp [hp])).1 (tick_cEnc hp)
  case dEnc => exact encodeStep_goesTo (hdata (by simp [hp])).1 (tick_dEnc hp)
  case cTx =>
    obtain ⟨hs, hop⟩ := hcommand (by simp [hp])
    exact writeStep_leadsTo hs hop (tick_cTx hp)
  case dTx =>
    obtain ⟨hs, hop⟩ := hdata (by simp [hp])
    exact writeStep_leadsTo hs hop (tick_dTx hp)
  case cRxh =>
    obtain ⟨hs, hop⟩ := hcommand (by simp [hp])
    exact headerStep_leadsTo hs hop (tick_cRxh hp)
  case dRxh =>
    obtain ⟨hs, hop⟩ := hdata (by simp [hp])
    exact headerStep_leadsTo hs hop (tick_dRxh hp)
  case cRxt =>
    obtain ⟨hs, hop⟩ := hcommand (by simp [hp])
    exact tailStep_leadsTo hs hop (tick_cRxt hp)
  case dRxt =>
    obtain ⟨hs, hop⟩ := hdata (by simp [hp])
    exact tailStep_leadsTo hs hop (tick_dRxt hp)
  case blankCheck => exact finish_doneWith (hcommand (by simp [hp])).1 (tick_cChk_blankCheck hp hop)
  case onePhase =>
    have hone : s.op ≠ .blankCheck ∧ s.op.twoPhase = false := by
      simp only [List.mem_cons, List.not_mem_nil, or_false] at hop
      rcases hop with hop | hop | hop <;> rw [hop] <;> decide
    exact finish_doneWith (hcommand (by simp [hp])).1 (tick_cChk_ack_onePhase hp hb hone.1 hone.2)
  case twoPhase =>
    have htwo : s.op.twoPhase = true := (twoPhase_iff _).mpr (by simpa using hop)
    exact goesTo_dEnc (hcommand (by simp [hp])).1 (tick_cChk_ack_twoPhase hp hb htwo)
  case rejected => exact failsIn_of_failure (hcommand (by simp [hp])).2 (tick_cChk_rejected hp hb hop)
  case dataAck => exact finish_doneWith (hdata (by simp [hp])).1 ((tick_dChk hp).trans (if_pos hb))
  case dataRejected => exact failsIn_of_failure (hdata (by simp [hp])).2 ((tick_dChk hp).trans (if_neg hb))

/-! ## A wire item is its phases -/

/-- At a check phase the item is the next phase, whether the byte has a row or not (R150, R153). -/
theorem runItem_check (hp : s.phase = .cChk ∨ s.phase = .dChk) : runItem s = .next (tick s) := by
  cases hd : decode .status [s.status] with
  | ok i =>
    calc runItem s = exec i s := runItem_status hp hd
      _ = judgeAtCheck s.status s := exec_status hd
      _ = .next (judge s.status s) := judgeAtCheck_check _ hp
      _ = .next (tick s) := by rw [tick_check hp]
  | error e => exact runItem_unlisted_status hp hd

/-- DATA is the phases D_ENC and D_TX (R132). -/
theorem runItem_dEnc (hp : s.phase = .dEnc) : runItem s = .next (ticks 2 s) := by
  have hwrite : tick (tick s) = writeStep .dRxh .data (encodeStep (encodeData s.data) .dTx s) := by
    rw [tick_dEnc hp, tick_dTx rfl]
  rw [runItem_data hp, exec_data s.data hp, ← hwrite]
  rfl

/-- Two bytes at the front of the stream are a whole header: the tail read follows (R133). -/
theorem headerStep_phase {stx len : Byte} {r : List RxItem} (mid : Phase) (x : Exchange)
    (hrx : s.rx = [stx, len].map .byte ++ r) : (headerStep mid x s).phase = mid := by
  rw [headerStep_bytes stx len r mid x hrx, takeHeader_full _ _ _ _ rfl]

section wholeResponse

variable {stx len b : Byte} {rest : List Byte} {r : List RxItem} (hrest : rest.length = len.toNat + 1)
  (hrx : s.rx = (stx :: len :: b :: rest).map .byte ++ r)
include hrest hrx

/-- A header phase and the tail phase that it leads to read a whole response (R133, R181). -/
theorem ticks_reads {mid next : Phase} {x : Exchange} (hheader : tick s = headerStep mid x s)
    (htail : ∀ {u : State}, u.phase = mid → tick u = tailStep next x u) :
    ticks 2 s = State.afterResponse stx len b rest next { s with rx := r } := by
  have hmid : (headerStep mid x s).phase = mid := headerStep_phase (r := (b :: rest).map .byte ++ r) mid x hrx
  rw [ticks, ticks, ticks, hheader, htail hmid, tailStep_headerStep hrest mid next x s r hrx]

theorem ticks_cRxh (hp : s.phase = .cRxh) :
    ticks 2 s = State.afterResponse stx len b rest .cChk { s with rx := r } :=
  ticks_reads hrest hrx (tick_cRxh hp) tick_cRxt

theorem ticks_dRxh (hp : s.phase = .dRxh) :
    ticks 2 s = State.afterResponse stx len b rest .dChk { s with rx := r } :=
  ticks_reads hrest hrx (tick_dRxh hp) tick_dRxt

/-- RESP is the two read phases of its exchange (R133). -/
theorem runItem_rxh (hp : s.phase = .cRxh ∨ s.phase = .dRxh) : runItem s = .next (ticks 2 s) := by
  rw [runItem_response hp stx len b rest r hrest hrx, exec_resp (s := { s with rx := r }) hrest hp]
  rcases hp with hp | hp
  · rw [ticks_cRxh hrest hrx hp, if_pos hp]
  · rw [ticks_dRxh hrest hrx hp, if_neg (by simp [hp])]

end wholeResponse

/-- An item that is `k` phases is a run of `k` steps with nothing from outside. -/
theorem run_item {k : Nat} (h : runItem { s with inputs := [] } = .next (ticks k { s with inputs := [] })) :
    Sys2Proof.core.run 1 { s with inputs := [.item] } = Sys2Proof.core.run k { s with inputs := [] } :=
  (run_next 0 { s with inputs := [.item] } _ ((step_item rfl).trans h)).trans
    (run_quiet k { s with inputs := [] } rfl).symm

/-- Settles O45: the data frame, the whole response and the status are as many phases. -/
theorem itemIsItsPhases : Obligations.ItemIsItsPhases := by
  refine fun s stx len b rest r => ⟨fun hp => run_item (runItem_dEnc hp), fun hp hrest hrx => run_item ?response,
    fun hp => run_item (runItem_check hp)⟩
  case response => exact runItem_rxh (s := { s with inputs := [] }) hrest hrx hp

/-! ## Every run keeps the invariant -/

/-- A run that does not stop keeps the invariant, however long it is. -/
theorem run_inv {k : Nat} (h : s.Inv) (hrun : Sys2Proof.core.run k s = .next t) : t.Inv := by
  induction k generalizing s with
  | zero => cases hrun; exact h
  | succ k ih =>
    cases hstep : step s with
    | next u => exact ih (stepKeepsInvariant s u h hstep) ((run_next k s u hstep).symm.trans hrun)
    | fault f | refused f =>
      have hstop : Sys2Proof.core.step s = _ := hstep
      simp only [Host.Core.run, hstop, reduceCtorEq] at hrun

/-- Settles O51: the invariant holds after reset in every environment, every run keeps it, and it says so of HIST. -/
theorem runsSendNoUnacknowledgedData : Obligations.RunsSendNoUnacknowledgedData := by
  intro k rx opens writes inputs t hrun
  have hreset : State.Inv { State.reset with rx := rx, opens := opens, writes := writes, inputs := inputs } :=
    resetMeetsInvariant
  obtain ⟨-, -, -, -, -, hsends, hjustified⟩ := run_inv hreset hrun
  exact ⟨hjustified, hsends⟩

/-! ## How much an operation can send and read (R190, R192) -/

/-- Whether an event is a write, however it was answered. -/
def Event.isWrite : Event → Bool
  | .tx _ _ => true
  | _ => false

/-- Whether an event is a read. -/
def Event.isRead : Event → Bool
  | .rx _ _ => true
  | _ => false

/-- How many writes are left from a phase on, in an operation that has a data exchange or not (R163, R189). -/
def Phase.writesLeft (twoPhase : Bool) : Phase → Nat
  | .hs0 | .hs1 | .hs2 | .hs3 | .hs4 | .hs5 | .hs6 => 2
  | .hs7 | .hs8 => 1
  | .cEnc | .cTx => if twoPhase then 2 else 1
  | .cRxh | .cRxt | .cChk => if twoPhase then 1 else 0
  | .dEnc | .dTx => 1
  | .idle | .opening | .hs9 | .dRxh | .dRxt | .dChk | .closing => 0

/-- How many reads are left from a phase on, at most (R189). -/
def Phase.readsLeft : Phase → Nat
  | .cEnc | .cTx | .cRxh => 4
  | .cRxt => 3
  | .cChk | .dEnc | .dTx | .dRxh => 2
  | .dRxt => 1
  | .idle | .opening | .hs0 | .hs1 | .hs2 | .hs3 | .hs4 | .hs5 | .hs6 | .hs7 | .hs8 | .hs9 | .dChk | .closing => 0

/-- How many writes the operation under way has left, at most. -/
def State.writesLeft (s : State) : Nat := s.phase.writesLeft s.op.twoPhase

/-- From `s` to `t` the events `es` are recorded, and as many writes and reads fewer are left. -/
structure State.Spends (s t : State) (es : List Event) : Prop where
  hist : t.hist = s.hist ++ es
  writes : es.countP Event.isWrite + t.writesLeft ≤ s.writesLeft
  reads : es.countP Event.isRead + t.phase.readsLeft ≤ s.phase.readsLeft

theorem spends_nothing (s : State) : s.Spends s [] :=
  ⟨(List.append_nil _).symm, by simp, by simp⟩

theorem State.Spends.trans {es es' : List Event} (h : s.Spends t es) (h' : t.Spends u es') :
    s.Spends u (es ++ es') := by
  obtain ⟨hhist, hwrites, hreads⟩ := h
  obtain ⟨hhist', hwrites', hreads'⟩ := h'
  refine ⟨by rw [hhist', hhist, List.append_assoc], ?_, ?_⟩ <;> rw [List.countP_append] <;> omega

/-- A phase without a transfer goes on in the same operation with as much left. -/
theorem spends_quiet {p : Phase} {es : List Event} (hp : s.phase = p) (hop : t.op = s.op)
    (hhist : t.hist = s.hist ++ es) (hwrites : ∀ two, t.phase.writesLeft two = p.writesLeft two)
    (hreads : t.phase.readsLeft = p.readsLeft) (hnoWrite : es.countP Event.isWrite = 0)
    (hnoRead : es.countP Event.isRead = 0) : s.Spends t es := by
  refine ⟨hhist, ?_, ?_⟩
  · rw [State.writesLeft, State.writesLeft, hop, hwrites, hp, hnoWrite, Nat.zero_add]
  · rw [hreads, hp, hnoRead, Nat.zero_add]

/-- A phase that ends the operation without a transfer leaves nothing to write or to read. -/
theorem spends_end {es : List Event} (hidle : t.phase = .idle) (hhist : t.hist = s.hist ++ es)
    (hnoWrite : es.countP Event.isWrite = 0) (hnoRead : es.countP Event.isRead = 0) : s.Spends t es := by
  refine ⟨hhist, ?_, ?_⟩
  · rw [State.writesLeft, hidle, hnoWrite]
    exact Nat.zero_le _
  · rw [hidle, hnoRead]
    exact Nat.zero_le _

/-- A phase that transfers once goes on in the same operation, or ends it, and what it does is counted. -/
theorem spends_transfer {p next : Phase} {e : Event} (hp : s.phase = p)
    (ht : t.phase = next ∧ t.op = s.op ∨ t.phase = .idle) (hhist : t.hist = s.hist ++ [e])
    (hwrites : ∀ two, [e].countP Event.isWrite + next.writesLeft two ≤ p.writesLeft two)
    (hreads : [e].countP Event.isRead + next.readsLeft ≤ p.readsLeft) : s.Spends t [e] := by
  rcases ht with ⟨hnext, hop⟩ | hidle
  · exact ⟨hhist, by simpa only [State.writesLeft, hp, hnext, hop] using hwrites s.op.twoPhase, by rwa [hp, hnext]⟩
  · refine ⟨hhist, ?_, ?_⟩
    · rw [State.writesLeft, State.writesLeft, hp, hidle]
      exact le_trans (Nat.le_add_right ..) (hwrites _)
    · rw [hp, hidle]
      exact le_trans (Nat.le_add_right ..) hreads

section kinds

variable {p next : Phase} (hp : s.phase = p)
include hp

/-- A write has one fewer left behind it, however it is answered. -/
theorem syncStep_spends (hwrites : ∀ two, 1 + next.writesLeft two ≤ p.writesLeft two)
    (hreads : 0 + next.readsLeft ≤ p.readsLeft) : ∃ es, s.Spends (syncStep next s) es := by
  rcases syncStep_cases next s with ⟨w, d, e⟩ | ⟨w, d, k, e⟩ <;> rw [e]
  · exact ⟨_, spends_transfer hp (.inl ⟨rfl, rfl⟩) rfl hwrites hreads⟩
  · exact ⟨_, spends_transfer hp (.inr (raiseFailure_phase ..)) (raiseFailure_hist ..) hwrites hreads⟩

theorem writeStep_spends (x : Exchange) (hwrites : ∀ two, 1 + next.writesLeft two ≤ p.writesLeft two)
    (hreads : 0 + next.readsLeft ≤ p.readsLeft) : ∃ es, s.Spends (writeStep next x s) es := by
  rcases writeStep_cases next x s with ⟨w, d, e⟩ | ⟨w, d, k, e⟩ <;> rw [e]
  · exact ⟨_, spends_transfer hp (.inl ⟨rfl, rfl⟩) rfl hwrites hreads⟩
  · exact ⟨_, spends_transfer hp (.inr (raiseFailure_phase ..)) (raiseFailure_hist ..) hwrites hreads⟩

/-- A read has one fewer left behind it, whatever it brings. -/
theorem headerStep_spends (x : Exchange) (hwrites : ∀ two, 0 + next.writesLeft two ≤ p.writesLeft two)
    (hreads : 1 + next.readsLeft ≤ p.readsLeft) : ∃ es, s.Spends (headerStep next x s) es := by
  obtain ⟨h, rx, tm, d, hlen, e⟩ := headerStep_cases next x s
  rw [e]
  rcases Nat.lt_or_eq_of_le hlen with hshort | hfull
  · rw [takeHeader_short _ _ _ _ hshort]
    exact ⟨_, spends_transfer hp (.inr (raiseFailure_phase ..)) (raiseFailure_hist ..) hwrites hreads⟩
  · rw [takeHeader_full _ _ _ _ hfull]
    exact ⟨_, spends_transfer hp (.inl ⟨rfl, rfl⟩) rfl hwrites hreads⟩

theorem tailStep_spends (x : Exchange) (hwrites : ∀ two, 0 + next.writesLeft two ≤ p.writesLeft two)
    (hreads : 1 + next.readsLeft ≤ p.readsLeft) : ∃ es, s.Spends (tailStep next x s) es := by
  obtain ⟨v, rx, tm, d, hlen, e⟩ := tailStep_cases next x s
  obtain ⟨hmin, hmax⟩ := tailCount_bounds s.rxbuf[1]
  rw [e]
  rcases Nat.lt_or_eq_of_le hlen with hshort | hfull
  · rw [takeTail_short _ _ _ _ _ hshort]
    exact ⟨_, spends_transfer hp (.inr (raiseFailure_phase ..)) (raiseFailure_hist ..) hwrites hreads⟩
  · rw [takeTail_full _ _ _ _ _ hfull (by omega) hmax]
    exact ⟨_, spends_transfer hp (.inl ⟨rfl, rfl⟩) rfl hwrites hreads⟩

end kinds

theorem openStep_spends (s : State) : ∃ es, s.Spends (openStep s) es := by
  rcases openStep_cases s with ⟨o, d, e⟩ | ⟨o, d, e⟩ <;> rw [e]
  · exact ⟨_, spends_end rfl rfl rfl rfl⟩
  · exact ⟨_, spends_end (raiseFailure_phase ..) (raiseFailure_hist ..) rfl rfl⟩

theorem closeStep_spends (s : State) : ∃ es, s.Spends (closeStep s) es := by
  unfold closeStep
  split
  · exact ⟨[], spends_end rfl (List.append_nil _).symm rfl rfl⟩
  · exact ⟨[.closed], spends_end rfl rfl rfl rfl⟩

theorem finish_spends (r : Result) (s : State) : s.Spends (finish r s) [] :=
  spends_end rfl (List.append_nil _).symm rfl rfl

theorem raiseFailure_spends (f : Failure) (x : Option Exchange) (s : State) : s.Spends (raiseFailure f x s) [] :=
  spends_end (raiseFailure_phase ..) ((raiseFailure_hist ..).trans (List.append_nil _).symm) rfl rfl

/-- The first check ends a command of one exchange, and leaves one frame and one response to the others. -/
theorem judge_cChk_spends (b : Byte) (hp : s.phase = .cChk) : s.Spends (judge b s) [] := by
  rw [judge_cChk b hp]
  split
  · exact finish_spends _ s
  · split
    · split
      next hop =>
        have htwo : s.op.twoPhase = true := (twoPhase_iff _).mpr hop
        refine ⟨(List.append_nil _).symm, ?_, ?_⟩
        · simp [State.writesLeft, Phase.writesLeft, hp, htwo]
        · simp [Phase.readsLeft, hp]
      · exact finish_spends _ s
    · exact raiseFailure_spends _ _ s

theorem judge_dChk_spends (b : Byte) (hp : s.phase = .dChk) : s.Spends (judge b s) [] := by
  rw [judge_dChk b hp]
  split
  · exact finish_spends _ s
  · exact raiseFailure_spends _ _ s

/-- Every phase records what it spends (R189). -/
theorem tick_spends (s : State) : ∃ es, s.Spends (tick s) es := by
  unfold tick
  cases hp : s.phase with
  | idle => exact ⟨[], spends_nothing s⟩
  | opening => exact openStep_spends s
  | hs0 | hs1 | hs2 | hs3 | hs4 | hs5 | hs7 => exact ⟨_, spends_quiet hp rfl rfl (fun _ => rfl) rfl rfl rfl⟩
  | hs6 | hs8 => exact syncStep_spends hp (by decide) (by decide)
  | hs9 => exact ⟨_, spends_end rfl rfl rfl rfl⟩
  | cEnc | dEnc => exact ⟨[], spends_quiet hp rfl (List.append_nil _).symm (fun _ => rfl) rfl rfl rfl⟩
  | cTx | dTx => exact writeStep_spends hp _ (by decide) (by decide)
  | cRxh | dRxh => exact headerStep_spends hp _ (by decide) (by decide)
  | cRxt | dRxt => exact tailStep_spends hp _ (by decide) (by decide)
  | cChk => exact ⟨[], judge_cChk_spends _ hp⟩
  | dChk => exact ⟨[], judge_dChk_spends _ hp⟩
  | closing => exact closeStep_spends s

theorem ticks_spends (k : Nat) (s : State) : ∃ es, s.Spends (ticks k s) es := by
  induction k generalizing s with
  | zero => exact ⟨[], spends_nothing s⟩
  | succ k ih =>
    obtain ⟨es, hfirst⟩ := tick_spends s
    obtain ⟨es', hrest⟩ := ih (tick s)
    exact ⟨es ++ es', hfirst.trans hrest⟩

theorem writesLeft_le_two (s : State) : s.writesLeft ≤ 2 := by
  have hall : ∀ two p, Phase.writesLeft two p ≤ 2 := fun two p => by cases two <;> cases p <;> decide
  exact hall _ _

theorem readsLeft_le_four (p : Phase) : p.readsLeft ≤ 4 := by cases p <;> decide

/-- Admission records nothing. -/
theorem admitRequest_hist (q : Request) (s : State) : (admitRequest q s).hist = s.hist := by
  rcases admit_cases q s with ⟨r, e⟩ | ⟨p, -, -, e⟩ | ⟨-, -, e⟩ | ⟨-, e⟩ | ⟨-, op, b, d, e, -⟩ <;> rw [e]
  rfl

/-- A command of one exchange is admitted with one frame to send (R183 to R186). -/
theorem admitRequest_writesLeft {q : Request} (hcommand : q.op.isCommand = true) (hone : q.op.twoPhase = false)
    (s : State) : (admitRequest q s).writesLeft ≤ 1 := by
  rw [State.writesLeft]
  rcases admitRequest_command hcommand s with hidle | ⟨hcEnc, -, hop⟩
  · rw [hidle]
    exact Nat.zero_le _
  · rw [hcEnc, hop, hone]
    exact le_rfl

/-- Settles O38: an operation spends the writes and reads that its admission leaves. -/
theorem operationsDoNotLoop : Obligations.OperationsDoNotLoop := by
  intro q s hidle
  obtain ⟨es, hhist, hwrites, hreads⟩ := ticks_spends 10 (admitRequest q s)
  have hwritesLeft := writesLeft_le_two (admitRequest q s)
  have hreadsLeft := readsLeft_le_four (admitRequest q s).phase
  rw [List.countP_eq_length_filter] at hwrites hreads
  refine ⟨es, by rw [callOp_idle q s hidle, hhist, admitRequest_hist], ?writes, ?reads, fun n hq => ?oneFrame⟩
  case writes => exact le_trans (Nat.le_add_right ..) (hwrites.trans hwritesLeft)
  case reads => exact le_trans (Nat.le_add_right ..) (hreads.trans hreadsLeft)
  case oneFrame =>
    have hone : (admitRequest q s).writesLeft ≤ 1 := by
      rcases hq with rfl | rfl | rfl | rfl <;> exact admitRequest_writesLeft rfl rfl s
    exact le_trans (Nat.le_add_right ..) (hwrites.trans hone)

/-! ## One exchange, from its frame to its response (R181, R133)

The environment answers the write with ok and brings a whole response. -/

/-- The frame `f` has been built and written, and `w` answers the writes to come (R166). -/
def State.frameSent (f : List Byte) (w : List WriteAnswer) (next : Phase) (s : State) : State :=
  { s with
    statusV := false, txbuf := overlay s.txbuf 0 f, txlen := f.length, writes := w, tx := s.tx ++ f
    hist := s.hist ++ [.tx f true], phase := next }

/-- The frame `f` has been sent and a whole response read, and `r` is still to be received. -/
def State.exchanged (f : List Byte) (w : List WriteAnswer) (stx len b : Byte) (rest : List Byte) (r : List RxItem)
    (next : Phase) (s : State) : State :=
  State.afterResponse stx len b rest next { s.frameSent f w next with rx := r }

/-- The phase that builds a frame and the phase that writes it (R181). -/
theorem ticks_sends {f : List Byte} {w : List WriteAnswer} {mid next : Phase} {x : Exchange} (hf : f.length ≤ 260)
    (hw : s.writes = .ok :: w) (hencode : tick s = encodeStep f mid s)
    (hwrite : ∀ {u : State}, u.phase = mid → tick u = writeStep next x u) :
    ticks 2 s = s.frameSent f w next := by
  rw [ticks, ticks, ticks, hencode, hwrite rfl, writeStep_ok next x (encodeStep f mid s) hw,
    txFrame_encodeStep _ _ _ hf]
  rfl

section exchange

variable {w : List WriteAnswer} {stx len b : Byte} {rest : List Byte} {r : List RxItem}
  (hw : s.writes = .ok :: w) (hrx : s.rx = (stx :: len :: b :: rest).map .byte ++ r)
  (hrest : rest.length = len.toNat + 1)
include hw hrx hrest

/-- The command exchange up to its check (R189). -/
theorem ticks_commandExchange (hp : s.phase = .cEnc) :
    ticks 4 s = s.exchanged (commandFrame s.op s.blk) w stx len b rest r .cChk := by
  have hsent := ticks_sends (commandFrame_length_le s.op s.blk) hw (tick_cEnc hp) tick_cTx
  rw [ticks_add 2 2, hsent, ticks_cRxh (s := s.frameSent _ w .cRxh) hrest hrx rfl]
  rfl

/-- The data exchange up to its check (R189). -/
theorem ticks_dataExchange (hp : s.phase = .dEnc) :
    ticks 4 s = s.exchanged (encodeData s.data) w stx len b rest r .dChk := by
  have hsent := ticks_sends (encodeData_length s.data).le hw (tick_dEnc hp) tick_dTx
  rw [ticks_add 2 2, hsent, ticks_dRxh (s := s.frameSent _ w .dRxh) hrest hrx rfl]
  rfl

end exchange

/-! ### What it leaves -/

section leaves

variable {f : List Byte} {w : List WriteAnswer} {stx len b : Byte} {rest : List Byte} {r : List RxItem} {next : Phase}

theorem exchanged_hist : (s.exchanged f w stx len b rest r next).hist =
    s.hist ++ [.tx f true, .rx 2 [stx, len], .rx (len.toNat + 2) (b :: rest)] := by
  simp [State.exchanged, State.frameSent, State.afterResponse, tailCount_eq]

variable (hrest : rest.length = len.toNat + 1)
include hrest

theorem exchanged_rxFrame : (s.exchanged f w stx len b rest r next).rxFrame = stx :: len :: b :: rest :=
  afterResponse_rxFrame hrest next _

theorem exchanged_rxbuf_beyond (i : Nat) (hi : i < 259) (hbeyond : len.toNat + 4 ≤ i) :
    (s.exchanged f w stx len b rest r next).rxbuf[i] = s.rxbuf[i] :=
  afterResponse_rxbuf_beyond hrest next _ i hi hbeyond

/-- A request that ends after one exchange, whatever its result. -/
theorem oneExchange_endedWith (hf : f.length ≤ 260) (res : Result) (p : Sess) :
    s.OneExchange ((s.exchanged f w stx len b rest r next).endedWith res p) f stx len b rest :=
  ⟨exchanged_hist, rfl, overlay_take s.txbuf f hf,
    fun i hi hbeyond => overlay_get_beyond s.txbuf 0 f i hi ((Nat.zero_add _).symm ▸ hbeyond),
    exchanged_rxFrame hrest, exchanged_rxbuf_beyond hrest, rfl, rfl, rfl, rfl, rfl, rfl, rfl, rfl, rfl, rfl⟩

/-- A request that ends after two exchanges, of which the first brought ACK, whatever its result. -/
theorem twoExchanges_endedWith {g : List Byte} {w' : List WriteAnswer} {stx' len' b' : Byte} {rest' : List Byte}
    {r' : List RxItem} {next' : Phase} (hrest' : rest'.length = len'.toNat + 1) (hg : g.length ≤ 260) (res : Result)
    (p : Sess) :
    s.TwoExchanges
      (((s.exchanged f w stx len Config.stAck rest r next).exchanged g w' stx' len' b' rest' r' next').endedWith res p)
      f stx len rest g stx' len' b' rest' := by
  refine ⟨?hist, rfl, overlay_take _ g hg, exchanged_rxFrame hrest', fun i hi hfirst hsecond => ?beyond,
    rfl, rfl, rfl, rfl, rfl, rfl, rfl, rfl, rfl, rfl⟩
  case hist => exact exchanged_hist.trans (by rw [exchanged_hist]; simp)
  case beyond =>
    exact (exchanged_rxbuf_beyond hrest' i hi hsecond).trans (exchanged_rxbuf_beyond hrest i hi hfirst)

end leaves

/-! ## The six commands -/

/-- The command `op` has been admitted with the operands `k` and `d` (R180). -/
def State.admitted (op : Op) (k : BlockIndex) (d : Payload) (s : State) : State :=
  startCommand op { s with blk := k, data := d }

theorem admitPlain_admitted (op : Op) (hs : s.sess = .synced) :
    admitPlain op s = s.admitted op s.blk s.data :=
  admitPlain_synced op s hs

theorem admitBlock_admitted (op : Op) {n : Nat} (hs : s.sess = .synced) (hn : n ≤ 16383) :
    admitBlock op n s = s.admitted op (BitVec.ofNat 14 n) s.data :=
  admitBlock_synced op n s hs hn

/-- The payload at the host port is sampled (R67, R230). -/
theorem admitPayload_admitted (op : Op) {n : Nat} {p : Payload} (hs : s.sess = .synced) (hn : n ≤ 16383)
    (hoffer : s.offer = p.toList) : admitPayload op n s.offer s = s.admitted op (BitVec.ofNat 14 n) p :=
  hoffer ▸ admitPayload_synced op n p s hs hn

theorem blockIndex_toNat {n : Nat} (hn : n ≤ 16383) : (BitVec.ofNat 14 n).toNat = n := by
  rw [BitVec.toNat_ofNat]
  omega

/-- The frame of a block-scoped command carries the addresses of the block asked for (R185 to R188). -/
theorem commandFrame_block {op : Op} {c : Byte} {n : Nat} (h : ∀ k, commandFrame op k = blockFrame c k.toNat)
    (hn : n ≤ 16383) : commandFrame op (BitVec.ofNat 14 n) = encodeCommand c (addressBytes n) := by
  rw [h, blockIndex_toNat hn]
  rfl

theorem judgedAs_ack {op : Op} {x : Exchange} {b : Byte} (hb : b = 0x06#8) (hresult : t.result = .ok)
    (hsess : t.sess = .synced) : t.JudgedAs op x b :=
  ⟨fun _ => ⟨hresult, hsess⟩, fun h => absurd hb h⟩

theorem judgedAs_rejected {op : Op} {x : Exchange} {b : Byte} (hb : b ≠ 0x06#8)
    (hresult : t.result = .fail (.protocol b (statusName b)) op (some x)) (hsess : t.sess = .failed) :
    t.JudgedAs op x b :=
  ⟨fun h => absurd h hb, fun _ => ⟨hresult, hsess⟩⟩

section commands

variable {q : Request} {op : Op} {k : BlockIndex} {d : Payload} {w : List WriteAnswer} {stx len b : Byte}
  {rest : List Byte} {r : List RxItem} (hp : s.phase = .idle) (hs : s.sess = .synced)
  (hadmit : admitRequest q s = s.admitted op k d) (hw : s.writes = .ok :: w)
  (hrx : s.rx = (stx :: len :: b :: rest).map .byte ++ r) (hrest : rest.length = len.toNat + 1)
include hp hadmit hw hrx hrest

/-- An admitted command sends its frame and reads the response; six phases are left. -/
theorem callOp_commandExchange : callOp q s =
    ticks 6 ((s.admitted op k d).exchanged (commandFrame op k) w stx len b rest r .cChk) := by
  rw [callOp_idle q s hp, hadmit, ticks_add 4 6, ticks_commandExchange (s := s.admitted op k d) hw hrx hrest rfl]
  rfl

/-- A check that ends the command is the last phase, and what it ends with is the outcome of one exchange. -/
theorem callOp_oneExchange {res : Result} {p : Sess}
    (hend : tick ((s.admitted op k d).exchanged (commandFrame op k) w stx len b rest r .cChk) =
      ((s.admitted op k d).exchanged (commandFrame op k) w stx len b rest r .cChk).endedWith res p) :
    s.OneExchange (callOp q s) (commandFrame op k) stx len b rest
      ∧ (callOp q s).result = res ∧ (callOp q s).sess = p
      ∧ (callOp q s).rx = r ∧ (callOp q s).writes = w ∧ (callOp q s).blk = k ∧ (callOp q s).data = d := by
  rw [callOp_commandExchange hp hadmit hw hrx hrest, ticks, hend, ticks_idle 5 _ rfl]
  exact ⟨oneExchange_endedWith (s := s.admitted op k d) hrest (commandFrame_length_le op k) res p,
    rfl, rfl, rfl, rfl, rfl, rfl⟩

include hs

/-- Every command but a blank check that its first status ends is judged by that status (R182). -/
theorem command_completes (hcommand : op.isCommand = true) (hblank : op ≠ .blankCheck)
    (hack : b = 0x06#8 → op.twoPhase = false) :
    s.OneExchange (callOp q s) (commandFrame op k) stx len b rest ∧ (callOp q s).JudgedAs op .command b
      ∧ (callOp q s).rx = r ∧ (callOp q s).writes = w ∧ (callOp q s).blk = k ∧ (callOp q s).data = d := by
  have hopen : op ≠ .openPort := fun h => by cases h ▸ hcommand
  by_cases hb : b = 0x06#8
  · obtain ⟨hexchange, hresult, hsess, hkept⟩ := callOp_oneExchange hp hadmit hw hrx hrest
      (tick_cChk_ack_onePhase rfl hb hblank (hack hb))
    exact ⟨hexchange, judgedAs_ack hb hresult (hsess.trans hs), hkept⟩
  · obtain ⟨hexchange, hresult, hsess, hkept⟩ := callOp_oneExchange hp hadmit hw hrx hrest
      ((tick_cChk_rejected rfl hb hblank).trans (raiseFailure_eq_endedWith _ _ hopen))
    exact ⟨hexchange, judgedAs_rejected hb hresult hsess, hkept⟩

end commands

/-- Settles O26: each constant frame makes one exchange, whose status ends the command. -/
theorem plainCommandsComplete : Obligations.PlainCommandsComplete := by
  intro s w stx len b rest r hp hs hw hrx hrest
  have hcompletes {q : Request} {op : Op} (hadmit : admitRequest q s = admitPlain op s) :=
    command_completes hp hs (hadmit.trans (admitPlain_admitted op hs)) hw hrx hrest
  exact ⟨⟨_, rfl, hcompletes (q := .cmdReset) rfl rfl nofun fun _ => rfl⟩,
    ⟨_, rfl, hcompletes (q := .chipErase) rfl rfl nofun fun _ => rfl⟩⟩

/-- Settles O27: the block's frame makes one exchange, whose status ends the command. -/
theorem blockEraseCompletes : Obligations.BlockEraseCompletes := by
  intro s n w stx len b rest r hn hp hs hw hrx hrest
  obtain ⟨hexchange, hjudged, hrx, hwrites, hblk, hdata⟩ := command_completes (q := .blockErase n) hp hs
    (admitBlock_admitted .blockErase hs hn) hw hrx hrest rfl nofun fun _ => rfl
  rw [commandFrame_block (fun _ => rfl) hn] at hexchange
  exact ⟨_, rfl, hexchange, hjudged, hrx, hwrites, hblk ▸ blockIndex_toNat hn, hdata⟩

/-- Settles O28: the block's frame makes one exchange, and its status is the result. -/
theorem blankCheckCompletes : Obligations.BlankCheckCompletes := by
  intro s n w stx len b rest r hn hp hs hw hrx hrest
  obtain ⟨hexchange, hresult, hsess, hrx, hwrites, hblk, hdata⟩ := callOp_oneExchange (q := .blankCheck n) hp
    (admitBlock_admitted .blankCheck hs hn) hw hrx hrest (tick_cChk_blankCheck rfl rfl)
  rw [commandFrame_block (fun _ => rfl) hn] at hexchange
  exact ⟨_, rfl, hexchange, hresult, hsess.trans hs, hrx, hwrites, hblk ▸ blockIndex_toNat hn, hdata⟩

/-- Settles O30: a status that is not ACK ends Program and Verify after one exchange. -/
theorem rejectedCommandSendsNoData : Obligations.RejectedCommandSendsNoData := by
  intro s n p w stx len b rest r hn hoffer hp hs hw hb hrx hrest
  have hrejected {q : Request} {op : Op} {c : Byte} (hadmit : admitRequest q s = admitPayload op n s.offer s)
      (hframe : ∀ k, commandFrame op k = blockFrame c k.toNat) (hcommand : op.isCommand = true)
      (hblank : op ≠ .blankCheck) : s.OneExchange (callOp q s) (encodeCommand c (addressBytes n)) stx len b rest
        ∧ (callOp q s).JudgedAs op .command b ∧ (callOp q s).writes = w := by
    obtain ⟨hexchange, hjudged, -, hwrites, -⟩ := command_completes hp hs
      (hadmit.trans (admitPayload_admitted op hs hn hoffer)) hw hrx hrest hcommand hblank fun h => absurd h hb
    exact ⟨commandFrame_block hframe hn ▸ hexchange, hjudged, hwrites⟩
  exact ⟨⟨_, rfl, hrejected (q := .program n s.offer) rfl (fun _ => rfl) rfl nofun⟩,
    ⟨_, rfl, hrejected (q := .verify n s.offer) rfl (fun _ => rfl) rfl nofun⟩⟩

/-! ### Program and Verify with their data exchange -/

/-- Behind the ACK of Program or Verify the data frame is sent and its response read; the second check is left. -/
theorem ticks_dataExchange_of_ack {w : List WriteAnswer} {stx len b : Byte} {rest : List Byte} {r : List RxItem}
    (hp : s.phase = .cChk) (hack : s.status = 0x06#8) (htwo : s.op.twoPhase = true) (hw : s.writes = .ok :: w)
    (hrx : s.rx = (stx :: len :: b :: rest).map .byte ++ r) (hrest : rest.length = len.toNat + 1) :
    ticks 6 s = tick (s.exchanged (encodeData s.data) w stx len b rest r .dChk) := by
  rw [ticks, tick_cChk_ack_twoPhase hp hack htwo, ticks_add 4 1,
    ticks_dataExchange (s := { s with phase := .dEnc }) hw hrx hrest rfl]
  rfl

/-- The second check ends the command, judged by the second status (R182). -/
theorem endedWith_of_tick_dChk (ht : t = tick s) (hp : s.phase = .dChk) (hs : s.sess = .synced)
    (hopen : s.op ≠ .openPort) : ∃ res p, t = s.endedWith res p ∧ t.JudgedAs s.op .data s.status := by
  rw [tick_dChk hp] at ht
  by_cases hb : s.status = 0x06#8
  · rw [if_pos hb] at ht
    exact ⟨.ok, s.sess, ht, ht ▸ judgedAs_ack hb rfl hs⟩
  · rw [if_neg hb, raiseFailure_eq_endedWith _ _ hopen] at ht
    exact ⟨_, .failed, ht, ht ▸ judgedAs_rejected hb rfl rfl⟩

/-- Program and Verify send the data frame behind the ACK of their command, and the second status is their outcome
(R187, R188). -/
theorem twoPhase_completes {q : Request} {op : Op} {k : BlockIndex} {d : Payload} {w : List WriteAnswer}
    {stx len : Byte} {rest : List Byte} {stx' len' b : Byte} {rest' : List Byte} {r : List RxItem}
    (hp : s.phase = .idle) (hs : s.sess = .synced) (hadmit : admitRequest q s = s.admitted op k d)
    (hw : s.writes = .ok :: .ok :: w)
    (hrx : s.rx = (stx :: len :: 0x06#8 :: rest).map .byte ++ ((stx' :: len' :: b :: rest').map .byte ++ r))
    (hrest : rest.length = len.toNat + 1) (hrest' : rest'.length = len'.toNat + 1) (htwo : op.twoPhase = true) :
    s.TwoExchanges (callOp q s) (commandFrame op k) stx len rest (encodeData d) stx' len' b rest'
      ∧ (callOp q s).JudgedAs op .data b
      ∧ (callOp q s).rx = r ∧ (callOp q s).writes = w ∧ (callOp q s).blk = k ∧ (callOp q s).data = d := by
  have hopen : op ≠ .openPort := fun h => by cases h ▸ htwo
  have hsecond := (callOp_commandExchange hp hadmit hw hrx hrest).trans
    (ticks_dataExchange_of_ack rfl rfl htwo rfl rfl hrest')
  obtain ⟨res, p, hended, hjudged⟩ := endedWith_of_tick_dChk hsecond rfl hs hopen
  refine ⟨?_, hjudged, ?_⟩ <;> rw [hended]
  · exact twoExchanges_endedWith (s := s.admitted op k d) hrest hrest' (encodeData_length d).le res p
  · exact ⟨rfl, rfl, rfl, rfl⟩

/-- Settles O29: the command exchange brings ACK, and the data exchange behind it decides. -/
theorem twoPhaseCommandsComplete : Obligations.TwoPhaseCommandsComplete := by
  intro s n p w stx len rest stx' len' b rest' r hn hoffer hp hs hw hrx hrest hrest'
  have hcompletes {q : Request} {op : Op} {c : Byte} (hadmit : admitRequest q s = admitPayload op n s.offer s)
      (hframe : ∀ k, commandFrame op k = blockFrame c k.toNat) (htwo : op.twoPhase = true) :
      s.TwoExchanges (callOp q s) (encodeCommand c (addressBytes n)) stx len rest (encodeData p) stx' len' b rest'
        ∧ (callOp q s).JudgedAs op .data b
        ∧ (callOp q s).rx = r ∧ (callOp q s).writes = w ∧ (callOp q s).blk.toNat = n ∧ (callOp q s).data = p := by
    obtain ⟨hexchanges, hjudged, hrx, hwrites, hblk, hdata⟩ := twoPhase_completes hp hs
      (hadmit.trans (admitPayload_admitted op hs hn hoffer)) hw hrx hrest hrest' htwo
    exact ⟨commandFrame_block hframe hn ▸ hexchanges, hjudged, hrx, hwrites, hblk ▸ blockIndex_toNat hn, hdata⟩
  exact ⟨⟨_, rfl, hcompletes (q := .program n s.offer) rfl (fun _ => rfl) rfl⟩,
    ⟨_, rfl, hcompletes (q := .verify n s.offer) rfl (fun _ => rfl) rfl⟩⟩

end Sys2Proof.Machine
end

section
/-! 60_exceptions.md: what taking a failure does and what survives it (R221, R222), refusals (R224), which request and
which operation can end how (R219), and the session's transitions (R225, R226). What a phase does for the operation
under way is said once, by three outcomes; a request's last phase has one of the two that end it. -/

namespace Sys2Proof.Machine

variable {s t u : State}

/-! ## Failures and refusals as whole states -/

/-- Settles O13: OPEN leaves the session as it is, and every other operation that fails ends it. -/
theorem failureEntry : Obligations.FailureEntry := by
  intro f x s
  unfold raiseFailure
  split <;> rfl

/-- Settles O14: a refusal finishes the request at IDLE, where the phase is already, and Busy is answered only. -/
theorem refusalsChangeNothingElse : Obligations.RefusalsChangeNothingElse := by
  refine ⟨fun r s hidle => ?_, fun q s hbusy => if_neg hbusy⟩
  rw [refuse, finish, ← hidle]

/-! ## A FAILED session -/

/-- In a FAILED session only CLOSE is admitted (R225). -/
theorem admitRequest_failed {q : Request} (hs : s.sess = .failed) (hq : q ≠ .close) :
    ∃ r, admitRequest q s = refuse r s ∧ (r = .alreadyOpen ∨ r = .sessionFailed) := by
  cases q with
  | close => exact absurd rfl hq
  | openPort port => exact ⟨_, admitOpen_refused port (by simp [hs]), .inl rfl⟩
  | resetAndSync => exact ⟨.sessionFailed, by simp only [admitRequest, admitResetAndSync, hs], .inr rfl⟩
  | cmdReset | chipErase => exact ⟨.sessionFailed, by simp only [admitRequest, admitPlain, hs], .inr rfl⟩
  | blockErase n | blankCheck n => exact ⟨.sessionFailed, by simp only [admitRequest, admitBlock, hs], .inr rfl⟩
  | program n p | verify n p => exact ⟨.sessionFailed, by simp only [admitRequest, admitPayload, hs], .inr rfl⟩

/-- Settles O41: admission refuses the request, and a refusal is all that happens. -/
theorem failedSessionIsSilent : Obligations.FailedSessionIsSilent := by
  intro s q hidle hs hq
  obtain ⟨r, hrefused, hr⟩ := admitRequest_failed hs hq
  exact ⟨r, (callOp_refused hidle hrefused).trans (refusalsChangeNothingElse.1 r s hidle), hr⟩

/-! ## What a phase does for the operation under way -/

/-- The phase after this one, while the operation goes on (R29, R189); IDLE after the last of an operation. -/
def Phase.next : Phase → Phase
  | .hs0 => .hs1
  | .hs1 => .hs2
  | .hs2 => .hs3
  | .hs3 => .hs4
  | .hs4 => .hs5
  | .hs5 => .hs6
  | .hs6 => .hs7
  | .hs7 => .hs8
  | .hs8 => .hs9
  | .cEnc => .cTx
  | .cTx => .cRxh
  | .cRxh => .cRxt
  | .cRxt => .cChk
  | .cChk => .dEnc
  | .dEnc => .dTx
  | .dTx => .dRxh
  | .dRxh => .dRxt
  | .dRxt => .dChk
  | .idle | .opening | .hs9 | .dChk | .closing => .idle

/-- The exchange that a phase belongs to (R24). -/
def Phase.exchange : Phase → Option Exchange
  | .cEnc | .cTx | .cRxh | .cRxt | .cChk => some .command
  | .dEnc | .dTx | .dRxh | .dRxt | .dChk => some .data
  | .idle | .opening | .hs0 | .hs1 | .hs2 | .hs3 | .hs4 | .hs5 | .hs6 | .hs7 | .hs8 | .hs9 | .closing => none

/-- The session after a phase that ends its operation well (R225, R226). -/
def Phase.sessionAfter (before : Sess) : Phase → Sess
  | .opening => .opened
  | .hs9 => .synced
  | .closing => .closed
  | _ => before

/-- Whether a phase comes behind one that has made the status invalid (R181), and has a write or a read to fail at. -/
def Phase.statusCleared : Phase → Bool
  | .cTx | .dTx | .cRxt | .dRxt => true
  | _ => false

/-- RXBUF holds a whole response, and its status is the valid one (R133). -/
structure State.HoldsResponse (s : State) : Prop where
  valid : s.statusV = true
  status : byteAt s.rxFrame 2 = s.status
  length : s.rxlen = (byteAt s.rxFrame 1).toNat + 4

/-- The status is valid at a check, for the response in RXBUF, and invalid before it (R23, R133, R181). -/
structure State.ResponseFits (s : State) : Prop where
  cleared : s.phase.statusCleared = true → s.statusV = false
  read : s.phase.judges = true → s.HoldsResponse

/-- The operation under way at `s` is at its next phase at `t`; the check of the command exchange goes on in Program and
Verify only (R189). -/
structure State.Advances (s t : State) : Prop where
  phase : t.phase = s.phase.next
  busy : t.phase ≠ .idle
  op : t.op = s.op
  sess : t.sess = s.sess
  acked : s.phase = .cChk → s.op.twoPhase = true
  response : t.ResponseFits

/-- The operation under way at `s` has ended well at `t`; only a blank check returns its status. -/
structure State.Completes (s t : State) : Prop where
  phase : t.phase = .idle
  result : t.result = .ok ∨ s.phase = .cChk ∧ ∃ b, t.result = .statusReturned b
  sess : t.sess = s.phase.sessionAfter s.sess
  ctl : t.ctl = s.ctl

/-- Where which failure can be raised (R211 to R213). -/
def State.CanRaise (s : State) : Failure → Prop
  | .transportOpen => s.phase = .opening
  | .transportWrite => s.phase = .hs6 ∨ s.phase = .hs8 ∨ s.phase.exchange.isSome = true
  | .framing asked got => s.phase.exchange.isSome = true ∧ got < asked
  | .protocol b name =>
    s.phase.exchange.isSome = true ∧ (s.op = .blankCheck → s.phase = .dChk) ∧ b ≠ 0x06#8 ∧ name = statusName b

/-- What RXBUF and the status hold behind a failure (R222): after a FramingError RXBUF holds the short read `v` behind
the header `h`, which is empty where the header itself is short. -/
def State.HoldsEvidence (t : State) : Failure → Prop
  | .transportOpen => True
  | .transportWrite => t.statusV = false
  | .framing asked got =>
    t.statusV = false ∧ ∃ pre h v, t.hist = pre ++ [.rx asked v] ∧ v.length = got ∧ t.rxFrame = h ++ v
      ∧ (asked = 2 ∧ h = [] ∨ h.length = 2 ∧ asked = (byteAt h 1).toNat + 2)
  | .protocol b _ => t.status = b ∧ t.HoldsResponse

/-- The operation under way at `s` has failed at `t`. -/
structure State.Raises (s : State) (f : Failure) (t : State) : Prop where
  phase : t.phase = .idle
  result : t.result = .fail f s.op s.phase.exchange
  sess : t.sess = if s.op = .openPort then s.sess else .failed
  origin : s.CanRaise f
  evidence : s.phase.exchange.isSome = true → s.ResponseFits → t.HoldsEvidence f

/-- The three things that a phase can do for the operation under way (R189). -/
def State.PhaseLeadsTo (s t : State) : Prop := s.Advances t ∨ s.Completes t ∨ ∃ f, s.Raises f t

/-! ### The ends -/

@[simp] theorem raiseFailure_rxFrame (f : Failure) (x : Option Exchange) (s : State) :
    (raiseFailure f x s).rxFrame = s.rxFrame := by
  simp [State.rxFrame]

/-- Taking a failure leaves the status and the buffers as they are (R221, R222). -/
theorem raiseFailure_holdsEvidence {f : Failure} (x : Option Exchange) (h : u.HoldsEvidence f) :
    (raiseFailure f x u).HoldsEvidence f := by
  cases f with
  | transportOpen => trivial
  | transportWrite | framing => simpa [State.HoldsEvidence] using h
  | protocol b name =>
    obtain ⟨hb, hvalid, hstatus, hlength⟩ := h
    exact ⟨by simpa, by simpa, by simpa, by simpa⟩

/-- A failure taken in a state `u` that the phase has made of `s`. -/
theorem raiseFailure_phaseLeadsTo {f : Failure} {x : Option Exchange} (hx : s.phase.exchange = x) (hop : u.op = s.op)
    (hsess : u.sess = s.sess) (horigin : s.CanRaise f)
    (hevidence : s.phase.exchange.isSome = true → s.ResponseFits → u.HoldsEvidence f) :
    s.PhaseLeadsTo (raiseFailure f x u) :=
  .inr (.inr ⟨f, by simp, by simp [hx, hop], by simp [hop, hsess], horigin,
    fun hexchange hfits => raiseFailure_holdsEvidence x (hevidence hexchange hfits)⟩)

theorem finish_ok_phaseLeadsTo (hsess : u.sess = s.phase.sessionAfter s.sess) (hctl : u.ctl = s.ctl) :
    s.PhaseLeadsTo (finish .ok u) :=
  .inr (.inl ⟨rfl, .inl rfl, hsess, hctl⟩)

/-! ### The phases -/

/-- A phase at whose next one the status is neither cleared nor judged goes on there. -/
theorem phaseLeadsTo_next {p : Phase} (hp : s.phase = p) (hphase : t.phase = p.next)
    (hnext : p.next ≠ .idle ∧ p.next.statusCleared = false ∧ p.next.judges = false) (hop : t.op = s.op)
    (hsess : t.sess = s.sess) (hacked : s.phase = .cChk → s.op.twoPhase = true) : s.PhaseLeadsTo t := by
  obtain ⟨hbusy, hcleared, hjudges⟩ := hnext
  refine .inl ⟨hp ▸ hphase, hphase ▸ hbusy, hop, hsess, hacked, ?_, ?_⟩ <;> rw [hphase]
  · simp [hcleared]
  · simp [hjudges]

theorem openStep_phaseLeadsTo (hp : s.phase = .opening) : s.PhaseLeadsTo (openStep s) := by
  rcases openStep_cases s with ⟨o, d, e⟩ | ⟨o, d, e⟩ <;> rw [e]
  · exact finish_ok_phaseLeadsTo (hp ▸ rfl) rfl
  · exact raiseFailure_phaseLeadsTo (hp ▸ rfl) rfl rfl hp fun _ _ => trivial

theorem closeStep_phaseLeadsTo (hp : s.phase = .closing) : s.PhaseLeadsTo (closeStep s) := by
  unfold closeStep
  split
  next hclosed => exact finish_ok_phaseLeadsTo (hp ▸ hclosed) rfl
  next => exact finish_ok_phaseLeadsTo (hp ▸ rfl) rfl

/-- The first two bytes of RXBUF are the header, with LEN behind the start byte (R92). -/
theorem byteAt_header (buf : Vector Byte 259) (v : List Byte) : byteAt (buf.toList.take 2 ++ v) 1 = buf[1] := by
  rw [vector_getElem_toList]
  unfold byteAt
  rw [List.getElem?_append_left (by simp)]
  simp

section kinds

variable {p : Phase} (hp : s.phase = p)
include hp

theorem syncStep_phaseLeadsTo (hn : p = .hs6 ∨ p = .hs8) : s.PhaseLeadsTo (syncStep p.next s) := by
  have hnone : s.phase.exchange = none := by rcases hn with rfl | rfl <;> rw [hp] <;> rfl
  rcases syncStep_cases p.next s with ⟨w, d, e⟩ | ⟨w, d, k, e⟩ <;> rw [e]
  · refine phaseLeadsTo_next hp rfl ?_ rfl rfl fun hchk => ?_
    · rcases hn with rfl | rfl <;> decide
    · rw [hchk] at hnone
      cases hnone
  · refine raiseFailure_phaseLeadsTo hnone rfl rfl ?_ (by simp [hnone])
    rcases hn with rfl | rfl
    · exact .inl hp
    · exact .inr (.inl hp)

/-- Building a frame makes the status invalid (R181). -/
theorem encodeStep_phaseLeadsTo (f : List Byte) (hn : p.next ≠ .idle ∧ p.next.judges = false ∧ p ≠ .cChk) :
    s.PhaseLeadsTo (encodeStep f p.next s) := by
  obtain ⟨hbusy, hjudges, hchk⟩ := hn
  exact .inl ⟨hp ▸ rfl, hbusy, rfl, rfl, fun h => absurd (hp.symm.trans h) hchk, fun _ => rfl, by simp [hjudges]⟩

variable {x : Exchange} (hx : p.exchange = some x)
include hx

theorem isSome_exchange : s.phase.exchange.isSome = true := by rw [hp, hx]; rfl

/-- A write that fails leaves the status as invalid as it found it (R222). -/
theorem writeStep_phaseLeadsTo (hcleared : p.statusCleared = true)
    (hn : p.next ≠ .idle ∧ p.next.statusCleared = false ∧ p.next.judges = false) (hchk : p ≠ .cChk) :
    s.PhaseLeadsTo (writeStep p.next x s) := by
  rcases writeStep_cases p.next x s with ⟨w, d, e⟩ | ⟨w, d, k, e⟩ <;> rw [e]
  · exact phaseLeadsTo_next hp rfl hn rfl rfl fun h => absurd (hp.symm.trans h) hchk
  · exact raiseFailure_phaseLeadsTo (hp ▸ hx) rfl rfl (.inr (.inr (isSome_exchange hp hx)))
      fun _ hfits => hfits.cleared (hp ▸ hcleared)

/-- The header read makes the status invalid, and what it brings stands first in RXBUF (R133, R134). -/
theorem headerStep_phaseLeadsTo (hn : p.next ≠ .idle ∧ p.next.judges = false ∧ p ≠ .cChk) :
    s.PhaseLeadsTo (headerStep p.next x s) := by
  obtain ⟨hbusy, hjudges, hchk⟩ := hn
  obtain ⟨h, rx, tm, d, hlen, e⟩ := headerStep_cases p.next x s
  rw [e]
  rcases Nat.lt_or_eq_of_le hlen with hshort | hfull
  · rw [takeHeader_short _ _ _ _ hshort]
    refine raiseFailure_phaseLeadsTo (hp ▸ hx) rfl rfl ⟨isSome_exchange hp hx, hshort⟩
      fun _ _ => ⟨rfl, s.hist, [], h, rfl, rfl, ?_, .inl ⟨rfl, rfl⟩⟩
    exact overlay_take s.rxbuf h (by show h.length ≤ 259; omega)
  · rw [takeHeader_full _ _ _ _ hfull]
    exact .inl ⟨hp ▸ rfl, hbusy, rfl, rfl, fun h => absurd (hp.symm.trans h) hchk, fun _ => rfl,
      by simp [hjudges]⟩

/-- The tail stands behind the header in RXBUF, whole or short (R135, R136). -/
theorem tailStep_phaseLeadsTo (hcleared : p.statusCleared = true)
    (hn : p.next ≠ .idle ∧ p.next.statusCleared = false ∧ p ≠ .cChk) :
    s.PhaseLeadsTo (tailStep p.next x s) := by
  obtain ⟨hbusy, hnotCleared, hchk⟩ := hn
  obtain ⟨v, rx, tm, d, hlen, e⟩ := tailStep_cases p.next x s
  obtain ⟨hmin, hmax⟩ := tailCount_bounds s.rxbuf[1]
  have hframe : (overlay s.rxbuf 2 v).toList.take (2 + v.length) = s.rxbuf.toList.take 2 ++ v :=
    overlay_tail s.rxbuf v.length rfl (by omega)
  rw [e]
  rcases Nat.lt_or_eq_of_le hlen with hshort | hfull
  · rw [takeTail_short _ _ _ _ _ hshort]
    refine raiseFailure_phaseLeadsTo (hp ▸ hx) rfl rfl ⟨isSome_exchange hp hx, hshort⟩ fun _ hfits =>
      ⟨hfits.cleared (hp ▸ hcleared), s.hist, s.rxbuf.toList.take 2, v, rfl, rfl, hframe, .inr ⟨by simp, ?_⟩⟩
    rw [tailCount_eq, ← byteAt_header s.rxbuf [], List.append_nil]
  · rw [takeTail_full _ _ _ _ _ hfull (by omega) hmax]
    refine .inl ⟨hp ▸ rfl, hbusy, rfl, rfl, fun h => absurd (hp.symm.trans h) hchk,
      by simp [hnotCleared], fun _ => ⟨rfl, ?_, ?_⟩⟩ <;>
      rw [hfull] at hframe <;> simp only [State.rxFrame, hframe]
    · exact byteAt_behind_two (by simp)
    · rw [byteAt_header, tailCount_eq]
      omega

end kinds

/-- The check of the command exchange, which judges the response in RXBUF (R182, R186). -/
theorem judge_cChk_phaseLeadsTo (hp : s.phase = .cChk) : s.PhaseLeadsTo (judge s.status s) := by
  have hx : s.phase.exchange = some .command := hp ▸ rfl
  rw [judge_cChk _ hp]
  split
  · exact .inr (.inl ⟨rfl, .inr ⟨hp, _, rfl⟩, hp ▸ rfl, rfl⟩)
  next hblank =>
    split
    · split
      next htwo => exact phaseLeadsTo_next hp rfl (by decide) rfl rfl fun _ => (twoPhase_iff _).mpr htwo
      next => exact finish_ok_phaseLeadsTo (hp ▸ rfl) rfl
    next hb =>
      exact raiseFailure_phaseLeadsTo hx rfl rfl ⟨hx ▸ rfl, fun h => absurd h hblank, hb, rfl⟩
        fun _ hfits => ⟨rfl, hfits.read (hp ▸ rfl)⟩

/-- The check of the data exchange (R182). -/
theorem judge_dChk_phaseLeadsTo (hp : s.phase = .dChk) : s.PhaseLeadsTo (judge s.status s) := by
  have hx : s.phase.exchange = some .data := hp ▸ rfl
  rw [judge_dChk _ hp]
  split
  · exact finish_ok_phaseLeadsTo (hp ▸ rfl) rfl
  next hb =>
    exact raiseFailure_phaseLeadsTo hx rfl rfl ⟨hx ▸ rfl, fun _ => hp, hb, rfl⟩
      fun _ hfits => ⟨rfl, hfits.read (hp ▸ rfl)⟩

/-- Every phase but IDLE goes on, ends its operation well, or fails it (R189). -/
theorem tick_phaseLeadsTo (h : s.phase ≠ .idle) : s.PhaseLeadsTo (tick s) := by
  unfold tick
  cases hp : s.phase with
  | idle => exact absurd hp h
  | opening => exact openStep_phaseLeadsTo hp
  | closing => exact closeStep_phaseLeadsTo hp
  | hs0 | hs1 | hs2 | hs3 | hs4 | hs5 | hs7 => exact phaseLeadsTo_next hp rfl (by decide) rfl rfl (by simp [hp])
  | hs6 | hs8 => exact syncStep_phaseLeadsTo hp (by decide)
  | hs9 => exact finish_ok_phaseLeadsTo (hp ▸ rfl) rfl
  | cEnc | dEnc => exact encodeStep_phaseLeadsTo hp _ (by decide)
  | cTx | dTx => exact writeStep_phaseLeadsTo hp rfl rfl (by decide) nofun
  | cRxh | dRxh => exact headerStep_phaseLeadsTo hp rfl (by decide)
  | cRxt | dRxt => exact tailStep_phaseLeadsTo hp rfl rfl (by decide)
  | cChk => exact judge_cChk_phaseLeadsTo hp
  | dChk => exact judge_dChk_phaseLeadsTo hp

/-! ## What fits the phases -/

/-- PhaseFits with the phase written out. -/
theorem phaseFits_at {p : Phase} (hp : s.phase = p) (h : s.PhaseFits) : State.PhaseFits { s with phase := p } := by
  subst hp
  exact h

/-- Operation, session and phase belong together also at the next phase. -/
theorem State.Advances.phaseFits (h : s.Advances t) (hfits : s.PhaseFits) : t.PhaseFits := by
  obtain ⟨hphase, hbusy, hop, hsess, hacked, -⟩ := h
  unfold State.PhaseFits
  rw [hphase, hop, hsess]
  cases hp : s.phase with
  | idle | opening | hs9 | dChk | closing => exact absurd (by rw [hphase, hp]; rfl) hbusy
  | cChk => exact ⟨hacked hp, (phaseFits_at hp hfits).2⟩
  | hs0 | hs1 | hs2 | hs3 | hs4 | hs5 | hs6 | hs7 | hs8 | cEnc | cTx | cRxh | cRxt | dEnc | dTx | dRxh | dRxt =>
    exact phaseFits_at hp hfits

theorem isCommand_of_twoPhase {op : Op} (h : op.twoPhase = true) : op.isCommand = true := by
  rcases (twoPhase_iff op).mp h with rfl | rfl <;> rfl

/-- In an exchange a command is under way in a SYNCED session, and in the data exchange it is Program or Verify. -/
theorem exchange_fits {x : Exchange} (hfits : s.PhaseFits) (hx : s.phase.exchange = some x) :
    s.op.isCommand = true ∧ s.sess = .synced ∧ (x = .data → s.op.twoPhase = true) := by
  cases hp : s.phase with
  | cEnc | cTx | cRxh | cRxt | cChk =>
    obtain ⟨hop, hs⟩ := phaseFits_at hp hfits
    rw [hp] at hx
    cases hx
    exact ⟨hop, hs, nofun⟩
  | dEnc | dTx | dRxh | dRxt | dChk =>
    obtain ⟨hop, hs⟩ := phaseFits_at hp hfits
    exact ⟨isCommand_of_twoPhase hop, hs, fun _ => hop⟩
  | idle | opening | hs0 | hs1 | hs2 | hs3 | hs4 | hs5 | hs6 | hs7 | hs8 | hs9 | closing =>
    rw [hp] at hx
    cases hx

/-- A failure comes from OPEN, which cannot open the port, from the handshake, which cannot write a sync byte, or from
an exchange of a command (R211 to R213, R219). -/
theorem canRaise_origin {f : Failure} (hfits : s.PhaseFits) (h : s.CanRaise f) :
    (f = .transportOpen ∧ s.op = .openPort ∧ s.phase.exchange = none)
    ∨ (f = .transportWrite ∧ s.op = .resetAndSync ∧ s.sess = .opened ∧ s.phase.exchange = none)
    ∨ (f ≠ .transportOpen ∧ s.op.isCommand = true ∧ s.sess = .synced
      ∧ ∃ x, s.phase.exchange = some x ∧ (x = .data → s.op.twoPhase = true)) := by
  have hexchange (hf : f ≠ .transportOpen) (hsome : s.phase.exchange.isSome = true) :
      f ≠ .transportOpen ∧ s.op.isCommand = true ∧ s.sess = .synced
        ∧ ∃ x, s.phase.exchange = some x ∧ (x = .data → s.op.twoPhase = true) := by
    obtain ⟨x, hx⟩ := Option.isSome_iff_exists.mp hsome
    obtain ⟨hop, hs, hdata⟩ := exchange_fits hfits hx
    exact ⟨hf, hop, hs, x, hx, hdata⟩
  cases f with
  | transportOpen => exact .inl ⟨rfl, (phaseFits_at h hfits).1, h ▸ rfl⟩
  | transportWrite =>
    rcases h with hp | hp | hsome
    · exact .inr (.inl ⟨rfl, (phaseFits_at hp hfits).1, (phaseFits_at hp hfits).2, hp ▸ rfl⟩)
    · exact .inr (.inl ⟨rfl, (phaseFits_at hp hfits).1, (phaseFits_at hp hfits).2, hp ▸ rfl⟩)
    · exact .inr (.inr (hexchange nofun hsome))
  | framing asked got => exact .inr (.inr (hexchange nofun h.1))
  | protocol b name => exact .inr (.inr (hexchange nofun h.1))

theorem isCommand_ne {op : Op} (h : op.isCommand = true) :
    op ≠ .openPort ∧ op ≠ .resetAndSync ∧ op ≠ .close ∧ op ≠ .none := by
  cases op <;> simp_all [Op.isCommand]

/-- A command fails in one of its exchanges (R219). -/
theorem command_raises_in_exchange {f : Failure} (hfits : s.PhaseFits) (h : s.CanRaise f)
    (hcommand : s.op.isCommand = true) : s.phase.exchange.isSome = true := by
  obtain ⟨hopen, hsync, -⟩ := isCommand_ne hcommand
  rcases canRaise_origin hfits h with ⟨-, hop, -⟩ | ⟨-, hop, -⟩ | ⟨-, -, -, x, hx, -⟩
  · exact absurd hop hopen
  · exact absurd hop hsync
  · rw [hx]
    rfl

/-- OPEN alone fails to open, the handshake fails to write only, and CLOSE and no operation never fail (R219). -/
theorem canRaise_operations {f : Failure} (hfits : s.PhaseFits) (h : s.CanRaise f) :
    (f = .transportOpen ↔ s.op = .openPort) ∧ (f = .transportOpen → s.phase.exchange = none)
      ∧ (s.op = .resetAndSync → f = .transportWrite ∧ s.phase.exchange = none) ∧ s.op ≠ .close ∧ s.op ≠ .none := by
  rcases canRaise_origin hfits h with ⟨rfl, hop, hx⟩ | ⟨rfl, hop, -, hx⟩ | ⟨hf, hcommand, -⟩
  · simp [hop, hx]
  · simp [hop, hx]
  · obtain ⟨hopen, hsync, hclose, hnone⟩ := isCommand_ne hcommand
    exact ⟨iff_of_false hf hopen, fun h => absurd h hf, fun h => absurd h hsync, hclose, hnone⟩

/-- Only Program and Verify have a data exchange (R187, R188). -/
theorem data_operations (hfits : s.PhaseFits) (hx : s.phase.exchange = some .data) :
    s.op = .program ∨ s.op = .verify := by
  obtain ⟨-, -, hdata⟩ := exchange_fits hfits hx
  exact (twoPhase_iff _).mp (hdata rfl)

/-- A blank check has no ProtocolError: it returns its status (R186, R219). -/
theorem protocol_operations {b : Byte} {name : String} (hfits : s.PhaseFits) (h : s.CanRaise (.protocol b name)) :
    s.op ≠ .blankCheck := by
  obtain ⟨-, hdChk, -⟩ := h
  intro hop
  rcases data_operations hfits (hdChk hop ▸ rfl) with hop' | hop' <;> cases hop.symm.trans hop'

/-! ## A request's last phase -/

/-- The request `q` is under way, and phase, session, status and buffers fit it. -/
structure State.Runs (q : Request) (rs : List Result) (s : State) : Prop extends s.Serves q rs where
  fits : s.PhaseFits
  response : s.ResponseFits

variable {q : Request} {rs : List Result}

/-- While an operation is not at its end, its phases advance it. -/
theorem advances_of_goesOn (hbusy : s.phase ≠ .idle) (hg : s.GoesOn (tick s)) : s.Advances (tick s) := by
  obtain ⟨-, hbusy', -⟩ := (leadsTo_iff _ _).mp hg.leads
  rcases tick_phaseLeadsTo hbusy with hadvances | hcompletes | ⟨f, hraises⟩
  · exact hadvances
  · exact absurd hcompletes.phase hbusy'
  · exact absurd hraises.phase hbusy'

theorem ticks_lastPhase (k : Nat) (s : State) (hs : s.Runs q rs) (hk : s.phase.phasesLeft ≤ k) :
    ∃ u, u.Runs q rs ∧ u.Ends (tick u) ∧ ticks k s = tick u := by
  induction k generalizing s with
  | zero =>
    have hidle : s.phase = .idle := by
      cases hp : s.phase <;> simp_all [Phase.phasesLeft]
    exact absurd hidle hs.busy
  | succ k ih =>
    rcases tick_goesOn_or_ends s hs.busy with hg | he
    · obtain ⟨-, -, hfewer⟩ := (leadsTo_iff _ _).mp hg.leads
      have hadvances := advances_of_goesOn hs.busy hg
      exact ih (tick s) ⟨serves_of_goesOn hs.toServes hg, hadvances.phaseFits hs.fits, hadvances.response⟩ (by omega)
    · exact ⟨s, hs, he, ticks_idle k _ he.phase⟩

/-- An admitted request stands at a first phase that fits it (R180). -/
theorem admitRequest_fits (q : Request) (s : State) :
    (admitRequest q s).PhaseFits ∧ (admitRequest q s).ResponseFits := by
  rcases admit_cases q s with ⟨r, e⟩ | ⟨p, -, hs, e⟩ | ⟨-, hs, e⟩ | ⟨-, e⟩ | ⟨hs, op, b, d, e, hq⟩ <;> rw [e]
  · exact ⟨rfl, nofun, nofun⟩
  · exact ⟨⟨rfl, hs⟩, nofun, nofun⟩
  · exact ⟨⟨rfl, hs⟩, nofun, nofun⟩
  · exact ⟨rfl, nofun, nofun⟩
  · have hop : op.isCommand = true := by
      rcases hq with ⟨rfl, -⟩ | ⟨rfl, -⟩ | ⟨n, rfl, -⟩ | ⟨n, rfl, -⟩ | ⟨n, v, rfl, -⟩ | ⟨n, v, rfl, -⟩ <;> rfl
    exact ⟨⟨hop, hs⟩, nofun, nofun⟩

/-- At IDLE a request is refused at admission, or answered by the last phase of its operation. -/
theorem callOp_refused_or_lastPhase (q : Request) (s : State) (hidle : s.phase = .idle) :
    (∃ r, admitRequest q s = refuse r s ∧ callOp q s = refuse r s)
      ∨ ∃ u, u.Runs q s.replies ∧ u.Ends (tick u) ∧ callOp q s = tick u := by
  rcases admitRequest_refused_or_serves q s with ⟨r, hrefused⟩ | hserves
  · exact .inl ⟨r, hrefused, callOp_refused hidle hrefused⟩
  · obtain ⟨hfits, hresponse⟩ := admitRequest_fits q s
    rw [callOp_idle q s hidle]
    exact .inr (ticks_lastPhase 10 _ ⟨hserves, hfits, hresponse⟩ (phasesLeft_le _))

/-- A request that fails is failed by its last phase. -/
theorem callOp_raises {f : Failure} {op : Op} {x : Option Exchange} (hidle : s.phase = .idle)
    (hresult : (callOp q s).result = .fail f op x) :
    ∃ u : State, u.Runs q s.replies ∧ u.Raises f (callOp q s) ∧ op = u.op ∧ x = u.phase.exchange := by
  rcases callOp_refused_or_lastPhase q s hidle with ⟨r, -, e⟩ | ⟨u, hu, hends, e⟩
  · rw [e] at hresult
    cases hresult
  · rw [e] at hresult ⊢
    rcases tick_phaseLeadsTo hu.busy with hadvances | hcompletes | ⟨f', hraises⟩
    · exact absurd hends.phase hadvances.busy
    · rcases hcompletes.result with hok | ⟨-, b, hb⟩
      · cases hok.symm.trans hresult
      · cases hb.symm.trans hresult
    · cases hraises.result.symm.trans hresult
      exact ⟨u, hu, hraises, rfl, rfl⟩

/-! ## R219: refusals by request, failures by operation -/

theorem refuse_injective {r r' : Reason} (h : refuse r s = refuse r' s) : r = r' :=
  Result.refused.inj (congrArg State.result h)

theorem startCommand_ne_refuse (op : Op) (u s : State) (r : Reason) : startCommand op u ≠ refuse r s :=
  fun h => by cases congrArg State.phase h

/-- The reasons for which a command is refused for its session. -/
theorem admitPlain_reason {op : Op} {r : Reason} (h : admitPlain op s = refuse r s) :
    r = .noSession ∨ r = .sessionFailed := by
  rw [admitPlain_eq] at h
  split at h
  · exact .inl (refuse_injective h).symm
  · split at h
    · exact .inr (refuse_injective h).symm
    · exact absurd h (startCommand_ne_refuse _ _ _ _)

theorem admitBlock_reason {op : Op} {n : Nat} {r : Reason} (h : admitBlock op n s = refuse r s) :
    r = .noSession ∨ r = .sessionFailed ∨ r = .blockOutOfRange := by
  rw [admitBlock_eq] at h
  split at h
  · exact .inl (refuse_injective h).symm
  · split at h
    · exact .inr (.inl (refuse_injective h).symm)
    · split at h
      · exact .inr (.inr (refuse_injective h).symm)
      · exact absurd h (startCommand_ne_refuse _ _ _ _)

theorem admitPayload_reason {op : Op} {n : Nat} {p : List Byte} {r : Reason} (h : admitPayload op n p s = refuse r s) :
    r = .noSession ∨ r = .sessionFailed ∨ r = .blockOutOfRange ∨ r = .badPayloadLength p.length := by
  rw [admitPayload_eq] at h
  split at h
  · exact .inl (refuse_injective h).symm
  · split at h
    · exact .inr (.inl (refuse_injective h).symm)
    · split at h
      · exact .inr (.inr (.inl (refuse_injective h).symm))
      · split at h
        · exact .inr (.inr (.inr (refuse_injective h).symm))
        · exact absurd h (startCommand_ne_refuse _ _ _ _)

theorem admitOpen_reason {port : String} {r : Reason} (h : admitOpen port s = refuse r s) : r = .alreadyOpen := by
  by_cases hs : s.sess = .closed
  · rw [admitOpen_closed port hs] at h
    cases congrArg State.phase h
  · exact (refuse_injective ((admitOpen_refused port hs).symm.trans h)).symm

theorem admitResetAndSync_reason {r : Reason} (h : admitResetAndSync s = refuse r s) :
    r = .notOpen ∨ r = .alreadySynced ∨ r = .sessionFailed := by
  unfold admitResetAndSync at h
  split at h
  · exact .inl (refuse_injective h).symm
  · cases congrArg State.phase h
  · exact .inr (.inl (refuse_injective h).symm)
  · exact .inr (.inr (refuse_injective h).symm)

/-- A request answered with a refusal was refused at once: Busy, or by admission. -/
theorem refused_at_admission {r : Reason} (h : (callOp q s).replies = s.replies ++ [.refused r]) :
    r = .busy ∨ admitRequest q s = refuse r s := by
  have hlast {res : Result} (hreplies : (callOp q s).replies = s.replies ++ [res]) : res = .refused r :=
    List.singleton_inj.mp (List.append_cancel_left (hreplies.symm.trans h))
  by_cases hidle : s.phase = .idle
  · rcases callOp_refused_or_lastPhase q s hidle with ⟨r', hrefused, e⟩ | ⟨u, hu, hends, e⟩
    · cases hlast (e ▸ refuse_replies s r')
      exact .inr hrefused
    · have hresult : (tick u).result = .refused r := hlast (by rw [e, hends.replies, hu.replies])
      rcases hends.outcome with hok | ⟨-, f, x, hfail⟩ | ⟨-, -, hstatus, -⟩
      · cases hok.symm.trans hresult
      · cases hfail.symm.trans hresult
      · cases hstatus.symm.trans hresult
  · cases hlast (callOp_busy q s hidle ▸ refuseBusy_replies s)
    exact .inl rfl

/-- Settles O35: the refusals are those of admission, and a failure is raised by the operation's last phase, where
phase and operation belong together. -/
theorem failuresByOperation : Obligations.FailuresByOperation := by
  refine ⟨fun q s r hreplies => ?refusals, fun q s f op x hidle hresult => ?failures⟩
  case refusals =>
    have hadmission := refused_at_admission hreplies
    cases q with
    | openPort port => exact (hadmission.imp_right admitOpen_reason).symm
    | resetAndSync =>
      have hreason := hadmission.imp_right admitResetAndSync_reason
      tauto
    | cmdReset | chipErase =>
      have hreason := hadmission.imp_right admitPlain_reason
      tauto
    | blockErase n | blankCheck n =>
      have hreason := hadmission.imp_right admitBlock_reason
      tauto
    | program n p | verify n p =>
      have hreason := hadmission.imp_right admitPayload_reason
      tauto
    | close => exact hadmission.resolve_right fun h => by cases congrArg State.phase h
  case failures =>
    obtain ⟨u, hu, hraises, rfl, rfl⟩ := callOp_raises hidle hresult
    have hcan := hraises.origin
    obtain ⟨hopen, hopenNone, hsync, hclose, hnone⟩ := canRaise_operations hu.fits hcan
    refine ⟨hopen, hopenNone, hsync, hclose, hnone, fun hkind => ?_, data_operations hu.fits, ?_, ?_⟩
    · cases f with
      | protocol b name => exact protocol_operations hu.fits hcan
      | transportOpen | transportWrite | framing => cases hkind
    · rintro b name rfl
      obtain ⟨-, -, hb, hname⟩ := hcan
      exact ⟨hb, hname⟩
    · rintro asked got rfl
      exact hcan.2

/-! ## R222: what survives a command's failure -/

/-- Settles O36: a command fails in an exchange, at a phase where the status and RXBUF are as R222 says, and taking the
failure leaves them so. -/
theorem whatSurvivesAFailure : Obligations.WhatSurvivesAFailure := by
  intro i s t f op x hidle hpos hnotSync hexec hresult
  obtain ⟨⟨hctl, hport, -⟩, hhist, -⟩ := commandsKeepTheRest i s t hexec hpos hnotSync
  obtain ⟨q, hq, e⟩ := exec_request i s hpos
  obtain rfl : callOp q s = t := Host.Outcome.next.inj (e.symm.trans hexec)
  obtain ⟨u, hu, hraises, -, -⟩ := callOp_raises hidle hresult
  have hcommand : u.op.isCommand = true := hu.op ▸ requestOf_isCommand hq hnotSync
  obtain ⟨hopen, -⟩ := isCommand_ne hcommand
  have hevidence := hraises.evidence (command_raises_in_exchange hu.fits hraises.origin hcommand) hu.response
  refine ⟨hctl, hport, hraises.sess.trans (if_neg hopen), hhist, ?write, ?framing, ?protocol⟩
  case write => rintro rfl; exact hevidence
  case framing => rintro asked got rfl; exact hevidence
  case protocol =>
    rintro b name rfl
    obtain ⟨hb, hvalid, hstatus, hlength⟩ := hevidence
    exact ⟨hvalid, hb, hstatus.trans hb, hlength⟩

/-! ## R226: the session's transitions -/

/-- A transition from the session `p` to that of `t`, with the result that goes with it (R226). -/
inductive Sess.MovesTo (p : Sess) (t : State) : Prop where
  | opens (before : p = .closed) (after : t.sess = .opened) (result : t.result = .ok)
  | syncs (before : p = .opened) (after : t.sess = .synced) (result : t.result = .ok) (ctl : t.ctl = true)
  | handshakeFails (before : p = .opened) (after : t.sess = .failed)
      (result : t.result = .fail .transportWrite .resetAndSync none)
  | commandFails (before : p = .synced) (after : t.sess = .failed)
      (result : ∃ f op x, t.result = .fail f op (some x))
  | closes (after : t.sess = .closed) (result : t.result = .ok)
  | resets (after : t.sess = .closed) (result : t.result = .none) (hist : t.hist = [])

/-- An operation that ends well changes the session in OPENING, in the handshake's last phase and in CLOSING. -/
theorem State.Completes.moves (h : s.Completes t) (hfits : s.PhaseFits) (hctl : s.CtlFits) :
    t.sess = s.sess ∨ s.sess.MovesTo t := by
  obtain ⟨-, hresult, hsess, hctl'⟩ := h
  have hok (hp : s.phase ≠ .cChk) : t.result = .ok := hresult.resolve_right fun ⟨hp', _⟩ => hp hp'
  obtain ⟨p, hp⟩ : ∃ p, s.phase = p := ⟨_, rfl⟩
  rw [hp] at hsess
  cases p with
  | opening => exact .inr (.opens (phaseFits_at hp hfits).2 hsess (hok (by simp [hp])))
  | hs9 =>
    have hasserted : s.ctl = true := by simpa only [State.CtlFits, hp] using hctl
    exact .inr (.syncs (phaseFits_at hp hfits).2 hsess (hok (by simp [hp])) (hctl'.trans hasserted))
  | closing => exact .inr (.closes hsess (hok (by simp [hp])))
  | idle | hs0 | hs1 | hs2 | hs3 | hs4 | hs5 | hs6 | hs7 | hs8 | cEnc | cTx | cRxh | cRxt | cChk | dEnc | dTx | dRxh
  | dRxt | dChk => exact .inl hsess

/-- A failure ends an OPEN session in the handshake and a SYNCED one in an exchange; a failed OPEN has none to end. -/
theorem State.Raises.moves {f : Failure} (h : s.Raises f t) (hfits : s.PhaseFits) :
    t.sess = s.sess ∨ s.sess.MovesTo t := by
  obtain ⟨-, hresult, hsess, horigin, -⟩ := h
  rcases canRaise_origin hfits horigin with ⟨-, hop, -⟩ | ⟨rfl, hop, hs, hx⟩ | ⟨-, hcommand, hs, x, hx, -⟩
  · exact .inl (hsess.trans (if_pos hop))
  · exact .inr (.handshakeFails hs (hsess.trans (if_neg (by simp [hop]))) (by rw [hresult, hop, hx]))
  · obtain ⟨hopen, -⟩ := isCommand_ne hcommand
    exact .inr (.commandFails hs (hsess.trans (if_neg hopen)) ⟨_, _, x, by rw [hresult, hx]⟩)

/-- A phase that changes the session ends the operation. -/
theorem tick_moves (h : s.Inv) :
    (tick s).sess = s.sess ∨ s.sess.MovesTo (tick s) ∧ (tick s).phase = .idle := by
  obtain ⟨hfits, -, hctl, -⟩ := h
  by_cases hidle : s.phase = .idle
  · exact .inl (congrArg State.sess (ticks_idle 1 s hidle))
  · rcases tick_phaseLeadsTo hidle with hadvances | hcompletes | ⟨f, hraises⟩
    · exact .inl hadvances.sess
    · exact (hcompletes.moves hfits hctl).imp_right fun hmoves => ⟨hmoves, hcompletes.phase⟩
    · exact (hraises.moves hfits).imp_right fun hmoves => ⟨hmoves, hraises.phase⟩

/-- However many phases are done, the session changes at most once, with the end of the operation. -/
theorem ticks_moves (k : Nat) (h : s.Inv) : (ticks k s).sess = s.sess ∨ s.sess.MovesTo (ticks k s) := by
  induction k generalizing s with
  | zero => exact .inl rfl
  | succ k ih =>
    rcases tick_moves h with hsame | ⟨hmoves, hidle⟩
    · rw [← hsame]
      exact ih (tick_inv h)
    · rw [ticks, ticks_idle k _ hidle]
      exact .inr hmoves

theorem supply_sess (q : Request) (s : State) : (supply q s).sess = s.sess := by
  cases q <;> rfl

/-- Admission does not change the session (R180). -/
theorem post_sess (q : Request) (s : State) : (post q s).sess = s.sess := by
  unfold post
  split
  · rcases admit_cases q s with ⟨r, e⟩ | ⟨p, -, -, e⟩ | ⟨-, -, e⟩ | ⟨-, e⟩ | ⟨-, op, b, d, e, -⟩ <;> exact e ▸ rfl
  · rfl

theorem callOp_moves (q : Request) (h : s.Inv) : (callOp q s).sess = s.sess ∨ s.sess.MovesTo (callOp q s) := by
  rw [← post_sess q s]
  unfold callOp
  split
  · exact ticks_moves _ (post_inv q h)
  · exact .inl rfl

/-- A wire item is one phase or two. -/
theorem runItem_eq_ticks (s : State) : ∃ k, runItem s = .next (ticks k s) := by
  rcases runItem_cases s with e | ⟨hp, -⟩ | ⟨hp, stx, len, b, rest, r, hrest, hrx, -⟩ | ⟨hp, -⟩
  · exact ⟨1, e⟩
  · exact ⟨2, runItem_dEnc hp⟩
  · exact ⟨2, runItem_rxh hrest hrx hp⟩
  · exact ⟨1, runItem_check hp⟩

/-- Each move of a step is phases, an admission with or without them, or HRESET. -/
theorem step_moves (h : s.Inv) (hstep : step s = .next t) : t.sess = s.sess ∨ s.sess.MovesTo t := by
  obtain ⟨xs, hmove⟩ := step_cases s t hstep
  have hrest : State.Inv { s with inputs := xs } := h
  rcases hmove with rfl | hitem | ⟨q, rfl⟩ | ⟨q, rfl⟩ | ⟨q, rfl⟩ | ⟨sent, rfl⟩
  · exact ticks_moves 1 hrest
  · obtain ⟨k, e⟩ := runItem_eq_ticks { s with inputs := xs }
    cases e.symm.trans hitem
    exact ticks_moves k hrest
  · have hcall := callOp_moves q (supply_inv q hrest)
    rwa [supply_sess] at hcall
  · exact callOp_moves q hrest
  · exact .inl ((post_sess q _).trans (supply_sess q _))
  · exact .inr (.resets rfl rfl rfl)

/-- Settles O46: a step that changes the session makes one of the transitions. -/
theorem sessionTransitions : Obligations.SessionTransitions := by
  intro s t h hstep hchanged
  cases (step_moves h hstep).resolve_left hchanged with
  | opens before after result => exact .inl ⟨before, after, result⟩
  | syncs before after result ctl => exact .inr (.inl ⟨before, after, result, ctl⟩)
  | handshakeFails before after result => exact .inr (.inr (.inl ⟨before, after, result⟩))
  | commandFails before after result => exact .inr (.inr (.inr (.inl ⟨before, after, result⟩)))
  | closes after result => exact .inr (.inr (.inr (.inr (.inl ⟨after, result⟩))))
  | resets after result hist => exact .inr (.inr (.inr (.inr (.inr ⟨after, result, hist⟩))))

end Sys2Proof.Machine
end

section
/-! 70_reset_and_hazards.md: every operation ends, and the block's reset. Each phase but IDLE takes the engine nearer to
IDLE, so as many phases as are left reach it; HRESET cuts off the write under way, and only that one. -/

namespace Sys2Proof.Machine

variable {s : State}

/-! ## Every operation ends (R270) -/

theorem phase_eq_idle_of_phasesLeft_le_zero {p : Phase} (h : p.phasesLeft ≤ 0) : p = .idle := by
  cases p <;> simp_all [Phase.phasesLeft]

/-- Any number of phases that is not below those left reaches IDLE. -/
theorem ticks_phase_eq_idle (k : Nat) (s : State) (hk : s.phase.phasesLeft ≤ k) : (ticks k s).phase = .idle := by
  induction k generalizing s with
  | zero => exact phase_eq_idle_of_phasesLeft_le_zero hk
  | succ k ih =>
    by_cases hidle : s.phase = .idle
    · rwa [ticks_idle _ s hidle]
    · rcases tick_goesOn_or_ends s hidle with hgoes | hends
      · obtain ⟨-, -, hfewer⟩ := (leadsTo_iff _ _).mp hgoes.leads
        exact ih (tick s) (by omega)
      · rw [ticks, ticks_idle k _ hends.phase, hends.phase]

/-- Settles O39: no phase has more than ten phases left, and each one but IDLE takes the engine nearer to it. -/
theorem everyOperationEnds : Obligations.EveryOperationEnds :=
  fun s => ticks_phase_eq_idle longestOperation s (phasesLeft_le s.phase)

/-! ## HRESET (R250) -/

theorem bytesOnTheWay_frame (h : s.phase = .cTx ∨ s.phase = .dTx) : bytesOnTheWay s = s.txFrame := by
  rcases h with h | h <;> simp only [bytesOnTheWay, h]

theorem bytesOnTheWay_handshake (h : s.phase = .hs6 ∨ s.phase = .hs8) : bytesOnTheWay s = [Config.syncByte] := by
  rcases h with h | h <;> simp only [bytesOnTheWay, h]

theorem bytesOnTheWay_no_write (h : s.phase ∉ [.cTx, .dTx, .hs6, .hs8]) : bytesOnTheWay s = [] := by
  cases hp : s.phase <;> simp_all [bytesOnTheWay]

/-- Settles O42: HRESET gives the registers their reset values, and TX ends with a prefix of the bytes on the way. -/
theorem hresetFromAnyState : Obligations.HresetFromAnyState := by
  intro sent s
  refine ⟨rfl, rfl, rfl, rfl, rfl, rfl, rfl, _, hreset_tx s sent, fun h => ?frame, fun h => ?handshake, fun h => ?none⟩
  case frame => exact bytesOnTheWay_frame h ▸ List.take_prefix ..
  case handshake => exact bytesOnTheWay_handshake h ▸ List.take_prefix ..
  case none => rw [bytesOnTheWay_no_write h, List.take_nil]

end Sys2Proof.Machine
end
